-- ==== Sys2Proof/Word.lean ====
section
/-! DEFINITION. The word types of the hardware: bytes, operation words, response words and pixels
(spec/00_scope.md R9, R10, R17; spec/20_memory.md R51, R53). -/

namespace Sys2Proof

/-- An 8-bit value: a colour channel, a brightness, a hue, a table entry (R9). -/
abbrev Byte := BitVec 8

/-- The 40-bit operation word `OPW[39:0]` (30_encoding.md R80). -/
abbrev OpWord := BitVec 40

/-- The 32-bit response word (30_encoding.md R84). -/
abbrev RspWord := BitVec 32

/-- One pixel: "an RGB triple, 8 bits per channel" (20_memory.md R51). -/
structure Rgb where
  r : Byte
  g : Byte
  b : Byte
deriving DecidableEq, Repr

/-- "off" is (0,0,0) (00_scope.md R15). -/
def Rgb.black : Rgb := ⟨0, 0, 0⟩
/-- Full white (00_scope.md R15). -/
def Rgb.white : Rgb := ⟨255, 255, 255⟩
/-- Pure red (00_scope.md R15). -/
def Rgb.red : Rgb := ⟨255, 0, 0⟩
/-- Pure blue (00_scope.md R15). -/
def Rgb.blue : Rgb := ⟨0, 0, 255⟩

/-- Whether a pixel is off, by its channels. -/
def Rgb.isBlack (c : Rgb) : Bool := c.r.toNat == 0 && c.g.toNat == 0 && c.b.toNat == 0

/-- The 24-bit word `{r, g, b}`: red in bits 23..16, green in 15..8, blue in 7..0 (20_memory.md R53). -/
def Rgb.toWord (c : Rgb) : BitVec 24 := c.r ++ c.g ++ c.b

/-- The pixel a 24-bit word `{r, g, b}` holds (20_memory.md R53). -/
def Rgb.ofWord (w : BitVec 24) : Rgb :=
  ⟨w.extractLsb' 16 8, w.extractLsb' 8 8, w.extractLsb' 0 8⟩

/-- The three channels of a pixel, for what holds of each of them alone (20_memory.md R55). -/
def Rgb.channel (p : Rgb) : Fin 3 → Byte
  | 0 => p.r
  | 1 => p.g
  | 2 => p.b

/-- `N_PIX`: pixels in the frame buffer (00_scope.md R9). -/
abbrev numPix : Nat := 96
/-- `RING_SIZE`: logical positions of a ring (00_scope.md R9). -/
abbrev ringSize : Nat := 48
/-- `N_MODE`: modes (00_scope.md R9). -/
abbrev numMode : Nat := 27

end Sys2Proof
end

