-- ==== Sys2Proof/Procedure.lean ====
section
/-! DEFINITION. Mode procedures as data, so that MODE_TABLE is a parameter that is plain data: a procedure is one
of the 27 standard ones, or a program of engine operations with arithmetic on the MS registers
(spec/44_mode_sequencer.md R214, R222, R223; spec/00_scope.md R11). The language of the programs is the model's own,
DESIGN CHOICE, log entry 17. -/

namespace Sys2Proof

/-- The arithmetic a procedure writes in pseudocode (44_mode_sequencer.md R214). A register reads as its unsigned
value; division and remainder are Euclidean. -/
inductive Expr
  | const (n : Int)
  /-- An MS register. -/
  | reg (i : Fin 4)
  /-- A name of the procedure's own: a loop counter, the result of an operation; 0 before it is assigned. -/
  | var (v : Nat)
  | add (a b : Expr)
  | sub (a b : Expr)
  | mul (a b : Expr)
  | div (a b : Expr)
  | mod (a b : Expr)
  /-- The exclusive or of the low 16 bits. -/
  | xor (a b : Expr)
  /-- 1 when `a < b`, else 0. -/
  | less (a b : Expr)
  /-- 1 when `a = b`, else 0. -/
  | same (a b : Expr)
deriving DecidableEq, Repr

/-- An operation a procedure may issue, with an expression for each field: the pure operations, the draws, and the
frame-buffer operations other than PRESENT (44_mode_sequencer.md R223 (2)). An `rgb` field is the 24-bit word. -/
inductive ProcOp
  | mappix (ring pos : Expr)
  | unmap (idx : Expr)
  | wrap48 (imm16 : Expr)
  | cdist (a b : Expr)
  | cfwd (a b : Expr)
  | gamma8 (v : Expr)
  | hsv2rgb (h sat v : Expr)
  | huedist (start n i : Expr)
  | scale8 (v b : Expr)
  | scale48 (v : Expr)
  | oscTri (idx scale phase : Expr)
  | oscSin (idx scale phase : Expr)
  | oscNoise (idx scale phase : Expr)
  | rand8
  | randn (n : Expr)
  | fill (rgb : Expr)
  | fillring (ring rgb : Expr)
  | setpix (idx rgb : Expr)
  | getpix (idx : Expr)
  | fadeall (k : Expr)
  | fadepix (idx k : Expr)
  | addpix (idx rgb : Expr)
deriving DecidableEq, Repr

/-- A procedure: a finite sequence of operations and register writes (44_mode_sequencer.md R214, R223 (2)). -/
inductive Proc
  | done
  /-- Issue an operation; its result, 0 when it has none, goes to the name `v`. -/
  | issue (v : Nat) (o : ProcOp)
  /-- `v <- e`. -/
  | assign (v : Nat) (e : Expr)
  /-- `x[i] <- e`, the low 16 bits. -/
  | write (i : Fin 4) (e : Expr)
  | seq (p q : Proc)
  /-- `p` when the expression is not 0, else `q`. -/
  | cond (e : Expr) (p q : Proc)
  /-- `for v = 0 .. count - 1`; the count is read once. -/
  | loop (v : Nat) (count : Expr) (body : Proc)
deriving DecidableEq, Repr

/-- What RESET and RENDER perform for a mode. -/
inductive ModeProc
  /-- The procedures of rule R240 + `m`, mode `m` of the default table (R214). -/
  | standard (m : Fin numMode)
  /-- A mode part of RESET and a render of one's own. -/
  | custom (reset render : Proc)
deriving DecidableEq, Repr

/-- A mode descriptor, one entry of `MODE_TABLE`: the delay in milliseconds its render returns, and its
procedures (44_mode_sequencer.md R214, R222). -/
structure ModeDesc where
  delay : Byte
  proc : ModeProc
deriving DecidableEq, Repr

end Sys2Proof
end

