-- ==== Sys2Proof/Config.lean ====
section
/-! DEFINITION. What an implementation fixes and what the spec leaves free
(spec/00_scope.md R11; spec/10_state.md R22). -/

namespace Sys2Proof

/-- `FALLBACK_DELAY` is 10..100 ms (00_scope.md R11). -/
abbrev Config.FallbackDelay := { d : Byte // 10 ≤ d.toNat ∧ d.toNat ≤ 100 }

/-- The open parameters (00_scope.md R11; 10_state.md R22). A state carries one value of this type, no operation
writes it, and a statement over all states holds for every value (log entries 16, 17). -/
structure Config.Params where
  /-- `INIT_BRIGHT`, the reset value of BRIGHT (10_state.md R27). -/
  initBright : Byte
  /-- `SIN_LUT`, 256 entries of 8 bits (42_oscillators.md R153). -/
  sinLut : Vector Byte 256
  /-- `HASH_LUT`, 256 entries of 8 bits (42_oscillators.md R156). -/
  hashLut : Vector Byte 256
  /-- `FALLBACK_DELAY`, in milliseconds (44_mode_sequencer.md R218). -/
  fallbackDelay : Config.FallbackDelay
  /-- `MODE_TABLE`, the 27 mode descriptors (44_mode_sequencer.md R222). -/
  modeTable : Vector ModeDesc numMode
deriving DecidableEq, Repr

/-- `RAND_STREAM`: the infinite sequence of 16-bit draws, "none: a free input, every stream is admitted"
(00_scope.md R11, 42_oscillators.md R160). No body: a claim holds for every stream (log entry 4). -/
opaque Config.randStream : Nat → BitVec 16

end Sys2Proof
end

