-- ==== Sys2Proof/Machine/Tables.lean ====
section
/-! DEFINITION. The read-only tables, the default MODE_TABLE and the default parameters (spec/20_memory.md R50;
spec/10_state.md R39; spec/00_scope.md R11). -/

namespace Sys2Proof.Machine

/-- `GAMMA_LUT`, the gamma curve, one row of 16 entries a line (41_color_utilities.md R131). -/
def gammaLutRows : List (List Byte) :=
  [[0, 0, 0, 0, 0, 0, 0, 0, 0, 0, 0, 0, 0, 0, 0, 1],
   [1, 1, 1, 1, 1, 1, 1, 1, 1, 2, 2, 2, 2, 2, 2, 2],
   [3, 3, 3, 3, 3, 4, 4, 4, 4, 5, 5, 5, 5, 6, 6, 6],
   [6, 7, 7, 7, 8, 8, 8, 9, 9, 9, 10, 10, 11, 11, 11, 12]] ++
  [[12, 13, 13, 13, 14, 14, 15, 15, 16, 16, 17, 17, 18, 18, 19, 19],
   [20, 20, 21, 22, 22, 23, 23, 24, 25, 25, 26, 26, 27, 28, 28, 29],
   [30, 30, 31, 32, 33, 33, 34, 35, 35, 36, 37, 38, 39, 39, 40, 41],
   [42, 43, 43, 44, 45, 46, 47, 48, 49, 49, 50, 51, 52, 53, 54, 55]] ++
  [[56, 57, 58, 59, 60, 61, 62, 63, 64, 65, 66, 67, 68, 69, 70, 71],
   [73, 74, 75, 76, 77, 78, 79, 81, 82, 83, 84, 85, 87, 88, 89, 90],
   [91, 93, 94, 95, 97, 98, 99, 100, 102, 103, 105, 106, 107, 109, 110, 111],
   [113, 114, 116, 117, 119, 120, 121, 123, 124, 126, 127, 129, 130, 132, 133, 135]] ++
  [[137, 138, 140, 141, 143, 145, 146, 148, 149, 151, 153, 154, 156, 158, 159, 161],
   [163, 165, 166, 168, 170, 172, 173, 175, 177, 179, 181, 182, 184, 186, 188, 190],
   [192, 194, 196, 197, 199, 201, 203, 205, 207, 209, 211, 213, 215, 217, 219, 221],
   [223, 225, 227, 229, 231, 234, 236, 238, 240, 242, 244, 246, 248, 251, 253, 255]]

/-- gammaLut as a table of 256 entries. -/
def gammaLut : Vector Byte 256 := ⟨gammaLutRows.flatten.toArray, by decide +kernel⟩

/-- `SIN_LUT`, the default sine table (42_oscillators.md R153). -/
def sinLutRows : List (List Byte) :=
  [[128, 131, 134, 137, 140, 143, 146, 149, 152, 155, 158, 162, 165, 167, 170, 173],
   [176, 179, 182, 185, 188, 190, 193, 196, 198, 201, 203, 206, 208, 211, 213, 215],
   [218, 220, 222, 224, 226, 228, 230, 232, 234, 235, 237, 238, 240, 241, 243, 244],
   [245, 246, 248, 249, 250, 250, 251, 252, 253, 253, 254, 254, 254, 255, 255, 255]] ++
  [[255, 255, 255, 255, 254, 254, 254, 253, 253, 252, 251, 250, 250, 249, 248, 246],
   [245, 244, 243, 241, 240, 238, 237, 235, 234, 232, 230, 228, 226, 224, 222, 220],
   [218, 215, 213, 211, 208, 206, 203, 201, 198, 196, 193, 190, 188, 185, 182, 179],
   [176, 173, 170, 167, 165, 162, 158, 155, 152, 149, 146, 143, 140, 137, 134, 131]] ++
  [[128, 124, 121, 118, 115, 112, 109, 106, 103, 100, 97, 93, 90, 88, 85, 82],
   [79, 76, 73, 70, 67, 65, 62, 59, 57, 54, 52, 49, 47, 44, 42, 40],
   [37, 35, 33, 31, 29, 27, 25, 23, 21, 20, 18, 17, 15, 14, 12, 11],
   [10, 9, 7, 6, 5, 5, 4, 3, 2, 2, 1, 1, 1, 0, 0, 0]] ++
  [[0, 0, 0, 0, 1, 1, 1, 2, 2, 3, 4, 5, 5, 6, 7, 9],
   [10, 11, 12, 14, 15, 17, 18, 20, 21, 23, 25, 27, 29, 31, 33, 35],
   [37, 40, 42, 44, 47, 49, 52, 54, 57, 59, 62, 65, 67, 70, 73, 76],
   [79, 82, 85, 88, 90, 93, 97, 100, 103, 106, 109, 112, 115, 118, 121, 124]]

/-- sinLut as a table of 256 entries. -/
def sinLut : Vector Byte 256 := ⟨sinLutRows.flatten.toArray, by decide +kernel⟩

/-- `HASH_LUT`, the default noise lattice, a permutation of 0..255 (42_oscillators.md R156). -/
def hashLutRows : List (List Byte) :=
  [[147, 47, 250, 205, 69, 58, 200, 175, 206, 56, 17, 62, 72, 207, 119, 184],
   [229, 93, 48, 79, 247, 112, 246, 201, 176, 54, 23, 240, 50, 253, 21, 66],
   [151, 203, 254, 209, 129, 14, 52, 75, 210, 116, 181, 226, 180, 211, 179, 244],
   [185, 153, 212, 83, 51, 20, 2, 213, 84, 114, 235, 148, 110, 161, 177, 222]] ++
  [[107, 55, 162, 117, 29, 18, 208, 183, 214, 16, 233, 22, 80, 215, 239, 144],
   [189, 5, 216, 87, 111, 232, 158, 113, 88, 174, 143, 104, 218, 165, 237, 26],
   [15, 115, 166, 121, 89, 230, 220, 243, 122, 76, 141, 186, 92, 123, 139, 204],
   [145, 65, 124, 251, 11, 236, 10, 221, 252, 74, 195, 108, 118, 169, 137, 182]] ++
  [[67, 223, 170, 125, 149, 234, 120, 95, 126, 136, 97, 142, 248, 127, 199, 8],
   [53, 173, 128, 255, 71, 192, 70, 25, 0, 134, 103, 64, 130, 77, 197, 242],
   [231, 27, 78, 33, 49, 190, 228, 155, 34, 36, 101, 146, 100, 131, 99, 164],
   [105, 73, 132, 3, 227, 196, 178, 133, 4, 194, 59, 68, 30, 81, 1, 46]] ++
  [[187, 135, 82, 37, 109, 98, 32, 7, 38, 96, 57, 102, 160, 39, 159, 224],
   [13, 85, 40, 167, 31, 152, 238, 193, 168, 94, 63, 24, 138, 245, 157, 202],
   [191, 35, 86, 41, 9, 150, 140, 163, 42, 156, 61, 106, 12, 43, 219, 28],
   [225, 241, 44, 171, 91, 60, 90, 45, 172, 154, 19, 188, 198, 249, 217, 6]]

/-- hashLut as a table of 256 entries. -/
def hashLut : Vector Byte 256 := ⟨hashLutRows.flatten.toArray, by decide +kernel⟩

/-- Reads entry `i` of a table of 256. -/
def lookup (t : Vector Byte 256) (i : Byte) : Byte := t[i.toNat]'i.isLt

/-- The default `MODE_TABLE`, mode 0 first: the delay of each row and the procedures of rule R240 + `m`
(44_mode_sequencer.md R222). -/
def modeRows : List ModeDesc :=
  [⟨20, .standard 0⟩, ⟨100, .standard 1⟩, ⟨100, .standard 2⟩, ⟨30, .standard 3⟩, ⟨30, .standard 4⟩,
   ⟨15, .standard 5⟩, ⟨40, .standard 6⟩, ⟨25, .standard 7⟩, ⟨20, .standard 8⟩, ⟨20, .standard 9⟩,
   ⟨25, .standard 10⟩, ⟨50, .standard 11⟩, ⟨20, .standard 12⟩, ⟨20, .standard 13⟩, ⟨30, .standard 14⟩] ++
  [⟨30, .standard 15⟩, ⟨50, .standard 16⟩, ⟨40, .standard 17⟩, ⟨100, .standard 18⟩, ⟨20, .standard 19⟩,
   ⟨20, .standard 20⟩, ⟨20, .standard 21⟩, ⟨50, .standard 22⟩, ⟨50, .standard 23⟩, ⟨30, .standard 24⟩,
   ⟨50, .standard 25⟩, ⟨10, .standard 26⟩]

/-- modeRows as a table of 27 entries. -/
def modeTable : Vector ModeDesc numMode := ⟨modeRows.toArray, by decide⟩

/-- The defaults of the open parameters (00_scope.md R11): INIT_BRIGHT 255, FALLBACK_DELAY 100, the tables of
R153, R156 and R222. -/
def defaultParams : Config.Params where
  initBright := 255
  sinLut := sinLut
  hashLut := hashLut
  fallbackDelay := ⟨100, by decide⟩
  modeTable := modeTable

end Sys2Proof.Machine
end

