-- ==== Sys2Proof/Syntax.lean ====
section
/-! DEFINITION. The 32 engine operations of EOS-1 with their operands
(spec/30_encoding.md R82, R83, R85; spec/opcode_table.json). -/

namespace Sys2Proof

/-- The ring operand: field value 0 is Ring A, 1 is Ring B (30_encoding.md R82). -/
inductive Ring
  | A
  | B
deriving DecidableEq, Repr

/-- The direction operand of ADJMODE and ADJBRI: field value 0 is plus, 1 is minus (30_encoding.md R83). -/
inductive Dir
  | plus
  | minus
deriving DecidableEq, Repr

/-- The 32 opcodes by name (30_encoding.md R85). The opcode alone selects the operation and its payload
format (R80). -/
inductive Op
  | nop | setmode | adjmode | setbri | adjbri | cfgupdM | cfgupdB | cfgupdMB | frame
  | mappix | unmap | wrap48 | cdist | cfwd
  | gamma8 | hsv2rgb | huedist | scale8 | scale48
  | oscTri | oscSin | oscNoise | rand8 | randn
  | fill | fillring | setpix | getpix | fadeall | fadepix | addpix | present
deriving DecidableEq, Repr

/-- An engine operation with its operands, each operand the field of its payload format
(30_encoding.md R82). Signed 16-bit requests are kept as the 16 bits of the field (R83). -/
inductive Instr
  /-- NOP (47_mode_controller.md R301). -/
  | nop
  /-- SETMODE imm16 (R302). -/
  | setmode (imm16 : BitVec 16)
  /-- ADJMODE dir (R303). -/
  | adjmode (dir : Dir)
  /-- SETBRI imm16 (R304). -/
  | setbri (imm16 : BitVec 16)
  /-- ADJBRI dir (R305). -/
  | adjbri (dir : Dir)
  /-- CFGUPD.M mode16 (R306). -/
  | cfgupdM (mode16 : BitVec 16)
  /-- CFGUPD.B imm16 (R307). -/
  | cfgupdB (imm16 : BitVec 16)
  /-- CFGUPD.MB mode16, bri16 (R308). -/
  | cfgupdMB (mode16 bri16 : BitVec 16)
  /-- FRAME (44_mode_sequencer.md R210). -/
  | frame
  /-- MAPPIX ring, pos (40_ring_geometry.md R111). -/
  | mappix (ring : Ring) (pos : BitVec 6)
  /-- UNMAP idx (R112). -/
  | unmap (idx : BitVec 7)
  /-- WRAP48 imm16 (R113). -/
  | wrap48 (imm16 : BitVec 16)
  /-- CDIST a, b (R114). -/
  | cdist (a b : BitVec 6)
  /-- CFWD a, b (R115). -/
  | cfwd (a b : BitVec 6)
  /-- GAMMA8 v (41_color_utilities.md R131). -/
  | gamma8 (v : Byte)
  /-- HSV2RGB h, s, v (R133). -/
  | hsv2rgb (h sat v : Byte)
  /-- HUEDIST start, n, i (R135). -/
  | huedist (start n i : Byte)
  /-- SCALE8 v, b (R137). -/
  | scale8 (v b : Byte)
  /-- SCALE48 v (R138). -/
  | scale48 (v : Byte)
  /-- OSC.TRI idx, scale, phase (42_oscillators.md R152). -/
  | oscTri (idx scale : Byte) (phase : BitVec 16)
  /-- OSC.SIN idx, scale, phase (R154). -/
  | oscSin (idx scale : Byte) (phase : BitVec 16)
  /-- OSC.NOISE idx, scale, phase (R157). -/
  | oscNoise (idx scale : Byte) (phase : BitVec 16)
  /-- RAND8 (R161). -/
  | rand8
  /-- RANDN n (R162). -/
  | randn (n : Byte)
  /-- FILL (r, g, b) (43_frame_buffer.md R181). -/
  | fill (rgb : Rgb)
  /-- FILLRING ring, rgb (R182). -/
  | fillring (ring : Ring) (rgb : Rgb)
  /-- SETPIX idx, rgb (R183). -/
  | setpix (idx : BitVec 7) (rgb : Rgb)
  /-- GETPIX idx (R184). -/
  | getpix (idx : BitVec 7)
  /-- FADEALL k (R185). -/
  | fadeall (k : Byte)
  /-- FADEPIX idx, k (R186). -/
  | fadepix (idx : BitVec 7) (k : Byte)
  /-- ADDPIX idx, rgb (R187). -/
  | addpix (idx : BitVec 7) (rgb : Rgb)
  /-- PRESENT b (R188). -/
  | present (b : Byte)
deriving DecidableEq, Repr

/-- The operation an instruction is a form of. -/
def Instr.op : Instr → Op
  | .nop => .nop
  | .setmode _ => .setmode
  | .adjmode _ => .adjmode
  | .setbri _ => .setbri
  | .adjbri _ => .adjbri
  | .cfgupdM _ => .cfgupdM
  | .cfgupdB _ => .cfgupdB
  | .cfgupdMB _ _ => .cfgupdMB
  | .frame => .frame
  | .mappix _ _ => .mappix
  | .unmap _ => .unmap
  | .wrap48 _ => .wrap48
  | .cdist _ _ => .cdist
  | .cfwd _ _ => .cfwd
  | .gamma8 _ => .gamma8
  | .hsv2rgb _ _ _ => .hsv2rgb
  | .huedist _ _ _ => .huedist
  | .scale8 _ _ => .scale8
  | .scale48 _ => .scale48
  | .oscTri _ _ _ => .oscTri
  | .oscSin _ _ _ => .oscSin
  | .oscNoise _ _ _ => .oscNoise
  | .rand8 => .rand8
  | .randn _ => .randn
  | .fill _ => .fill
  | .fillring _ _ => .fillring
  | .setpix _ _ => .setpix
  | .getpix _ => .getpix
  | .fadeall _ => .fadeall
  | .fadepix _ _ => .fadepix
  | .addpix _ _ => .addpix
  | .present _ => .present

end Sys2Proof
end

