-- ==== Sys2Proof/Machine/State.lean ====
section
/-! DEFINITION. The state of CORE as plain data, the inputs still to come, and the state after reset
(spec/10_state.md R20 to R49; spec/70_reset_and_hazards.md R370). -/

namespace Sys2Proof.Machine

/-- The three issuer classes (60_exceptions.md R340): which port an operation word comes from. -/
inductive Issuer
  /-- The host command port. -/
  | H
  /-- The button port. -/
  | B
  /-- The sequencer itself. -/
  | S
deriving DecidableEq, Repr

/-- The four button inputs (30_encoding.md R92), in the order of 60_exceptions.md R336. -/
inductive Button
  | modeInc | modeDec | briInc | briDec
deriving DecidableEq, Repr

/-- `SEQ`, the sequencer phase (10_state.md R34). The 2-bit value 3 is never taken; the spec says a model
uses a three-valued type (93_implementation_defined.md U28; log entry 7). -/
inductive Phase
  /-- 0: the delay is being counted, or a frame is about to start. -/
  | wait
  /-- 1: mode reset and render in progress. -/
  | render
  /-- 2: the scaled frame is being handed to the output consumer. -/
  | present
deriving DecidableEq, Repr

/-- The five non-fatal events, by their bit of DIAG (60_exceptions.md R331). -/
inductive Event
  | range | illop | priv | idx | unkmode
deriving DecidableEq, Repr

/-- The MS bank: four general registers of 16 bits (10_state.md R30). -/
structure MsBank where
  x0 : BitVec 16
  x1 : BitVec 16
  x2 : BitVec 16
  x3 : BitVec 16
deriving DecidableEq, Repr

/-- The frame buffer as (index, pixel) pairs in one canonical form: indices strictly rising and below 96,
no entry black, an unlisted index reads black, the spec's reset value (20_memory.md R50 to R56; 10_state.md
R33). A cell is one whole pixel: the hardware has no bytes (20_memory.md R52; log entry 9). -/
abbrev Memory := List (Nat × Rgb)

/-- One entry of OUT_LOG: the 96 pixels handed out, and the delay that followed (10_state.md R41). -/
structure FrameOut where
  pixels : List Rgb
  delay : Byte
deriving DecidableEq, Repr

/-- What the output consumer will do with `out_ready` (70_reset_and_hazards.md R384; log entry 6). -/
inductive Consumer
  /-- It holds `out_ready` high. -/
  | ready
  /-- It takes `n` more pixels and then holds `out_ready` low. -/
  | accepts (n : Nat)
deriving DecidableEq, Repr

/-- The inputs of one clock (10_state.md R46; 60_exceptions.md R332). -/
structure ClockIn where
  /-- `rst` is high. -/
  rst : Bool
  /-- `tick_ms` is high. -/
  tick : Bool
  /-- The word on the command port, when `cmd_valid` is high. -/
  cmd : Option OpWord
  /-- The pulses on the four button inputs. -/
  modeInc : Bool
  modeDec : Bool
  briInc : Bool
  briDec : Bool
  /-- What the output consumer does with `out_ready` from this clock on; `none`: as before. -/
  outReady : Option Consumer
deriving DecidableEq, Repr

/-- One action of one agent. The actions of a clock run one after another, each completely before the
next (60_exceptions.md R336). -/
inductive Action
  /-- `rst` is high in this clock (70_reset_and_hazards.md R370). -/
  | reset
  /-- An operation word from an issuer. -/
  | word (issuer : Issuer) (w : OpWord)
  /-- The sequencer's slot of a clock, with `tick_ms` as sampled. -/
  | sequencer (tick : Bool)
deriving DecidableEq, Repr

/-- The state: CORE's registers and frame buffer (10_state.md R21), the hand-off in progress, the output
history, and the inputs still to come, which no operation of CORE reads but the one they belong to. -/
structure State where
  /-- The open parameters (00_scope.md R11); no operation writes them. -/
  cfg : Config.Params
  /-- `MODE`, CR0 (10_state.md R25). -/
  mode : BitVec 5
  /-- `BRIGHT`, CR1 (R27). -/
  bright : Byte
  /-- `S_MODE`, CR6 (R28). -/
  sMode : BitVec 5
  /-- `S_BRIGHT`, CR7 (R28). -/
  sBright : Byte
  /-- `LASTMODE`, CR2; 31 is none (R29). -/
  lastMode : BitVec 5
  /-- `x[0..3]`, the MS bank (R30). -/
  x : MsBank
  /-- `FB[0..95]` (R33). -/
  fb : Memory
  /-- `SEQ`, CR4 (R34). -/
  seq : Phase
  /-- `DELAY`, CR3, in milliseconds (R35). -/
  delay : Byte
  /-- `DIAG`, CR5, five sticky bits (R36). -/
  diag : BitVec 5
  /-- `rsp_valid`, `rsp_word`: the response the host sees in the clock after (30_encoding.md R84). -/
  rsp : Option RspWord
  /-- The result handed to the sequencer by an operation it issued (30_encoding.md R84). -/
  sRes : Option RspWord
  /-- The delay `d` the render of the frame in progress returned, until FRAME loads it
  (44_mode_sequencer.md R210 steps 6 to 8). -/
  frameDelay : Option Byte
  /-- The brightness operand of the PRESENT in progress (43_frame_buffer.md R188). -/
  outBright : Byte
  /-- The pixels of the frame in flight the consumer has accepted; `out_idx` is their number. -/
  handoff : List Rgb
  /-- `OUT_LOG`, the frames handed out, oldest first (10_state.md R41). -/
  outLog : List FrameOut
  /-- Clocks the render in progress still takes (70_reset_and_hazards.md R392). -/
  renderLeft : Nat
  /-- The port the operation word being executed came from (60_exceptions.md R340). -/
  issuer : Issuer
  /-- The actions left of the current clock (60_exceptions.md R336). -/
  agenda : List Action
  /-- The inputs of the clocks to come, the next first; after them the ports are quiet. -/
  inputs : List ClockIn
  /-- The draws the random source answers next; after them `Config.randStream` answers. -/
  draws : List (BitVec 16)
  /-- The number of draws taken (42_oscillators.md R160; 70_reset_and_hazards.md R371). -/
  drawPos : Nat
  /-- `drawPos` as the current clock found it: `rand_req` was high once for each draw since (10_state.md R46; log
  entry 26). -/
  clockDraws : Nat
  /-- The output consumer (70_reset_and_hazards.md R384). -/
  consumer : Consumer
  /-- `RENDER_LAT` of the frames to come, in clocks; after them 0 (70_reset_and_hazards.md R392). -/
  renderLats : List Nat
deriving DecidableEq, Repr

/-- The reasons a step could stop with a fault: none. "No error kind is fatal to the render loop", and no
word can stop, stall or corrupt the engine (60_exceptions.md R330; 70_reset_and_hazards.md R388; log
entry 21). -/
inductive Fault
deriving DecidableEq, Repr

/-- The reasons a step could be refused. -/
inductive Refusal
  /-- An instruction without a meaning yet, raised by `exec`'s arm of it only; safe. No arm raises it: every
  instruction has its meaning. -/
  | notModelled (mnemonic : String)
deriving DecidableEq, Repr

/-- The state right after reset (10_state.md R48, 70_reset_and_hazards.md R370) with the default parameters
(00_scope.md R11). The fields that are the model's own have the values of log entries 2 to 6, 10, 14, 19, 26. -/
def State.reset : State where
  cfg := defaultParams
  mode := 0
  bright := 255
  sMode := 0
  sBright := 0
  lastMode := 31
  x := ⟨0, 0, 0, 0⟩
  fb := []
  seq := .wait
  delay := 0
  diag := 0
  rsp := none
  sRes := none
  frameDelay := none
  outBright := 0
  handoff := []
  outLog := []
  renderLeft := 0
  issuer := .H
  agenda := []
  inputs := []
  draws := []
  drawPos := 0
  clockDraws := 0
  consumer := .ready
  renderLats := []

end Sys2Proof.Machine
end

