-- ==== Sys2Proof/Machine/Operands.lean ====
section
/-! DEFINITION. Operand assembly: how each field becomes an operand (spec/30_encoding.md R83), the reduction
of position fields (spec/40_ring_geometry.md R110), and the fields the sequencer fills from mode-state
registers (spec/44_mode_sequencer.md R214). -/

namespace Sys2Proof.Machine

/-- `imm16`, `mode16` and `bri16` are signed: `sext_16(field)`, in -32768..32767 (30_encoding.md R83). -/
def sext16 (v : BitVec 16) : Int := v.toInt

/-- The sign a direction field selects: 0 means plus, 1 means minus (30_encoding.md R83). -/
def dirSign : Dir → Int
  | .plus => 1
  | .minus => -1

/-- A 6-bit position field reduced modulo 48 (40_ring_geometry.md R110). -/
def reducePos (p : BitVec 6) : Nat := p.toNat % ringSize

/-- A position as the 6-bit field of an operation word; a register value outside 0..47 (not reachable,
10_state.md R31) keeps its low 6 bits (log entry 12). -/
def posField (n : Nat) : BitVec 6 := BitVec.ofNat 6 n

/-- A number as an 8-bit field: hues wrap modulo 256 (44_mode_sequencer.md R220), and a register value
outside its range of R31 keeps its low 8 bits (log entry 12). -/
def byteField (n : Nat) : Byte := BitVec.ofNat 8 n

/-- The sum of a register and a step, reduced (44_mode_sequencer.md R220). -/
def addMod (v : BitVec 16) (step n : Nat) : BitVec 16 := BitVec.ofNat 16 ((v.toNat + step) % n)

end Sys2Proof.Machine
end

