-- ==== Sys2Proof/WellFormed.lean ====
section
/-! DEFINITION. The operand checks an instruction must pass beyond the widths its fields already have
(spec/30_encoding.md R83, R86 case c). -/

namespace Sys2Proof

/-- `n` of HUEDIST and `n` of RANDN must not be 0 (30_encoding.md R83, R86): the one thing the operand
types do not already say. -/
def Instr.wellFormed : Instr → Bool
  | .nop => true
  | .setmode _ => true
  | .adjmode _ => true
  | .setbri _ => true
  | .adjbri _ => true
  | .cfgupdM _ => true
  | .cfgupdB _ => true
  | .cfgupdMB _ _ => true
  | .frame => true
  | .mappix _ _ => true
  | .unmap _ => true
  | .wrap48 _ => true
  | .cdist _ _ => true
  | .cfwd _ _ => true
  | .gamma8 _ => true
  | .hsv2rgb _ _ _ => true
  | .huedist _ n _ => n != 0
  | .scale8 _ _ => true
  | .scale48 _ => true
  | .oscTri _ _ _ => true
  | .oscSin _ _ _ => true
  | .oscNoise _ _ _ => true
  | .rand8 => true
  | .randn n => n != 0
  | .fill _ => true
  | .fillring _ _ => true
  | .setpix _ _ => true
  | .getpix _ => true
  | .fadeall _ => true
  | .fadepix _ _ => true
  | .addpix _ _ => true
  | .present _ => true

end Sys2Proof
end

