-- ==== Sys2Proof/Decode.lean ====
section
/-! DEFINITION. The operation word: field extraction, the decoder (total, rejecting by name), the encoder
and the reader of the opcode table's words (spec/30_encoding.md R80 to R88). -/

namespace Sys2Proof

/-- Why a word is illegal (30_encoding.md R86). Every reason makes the word dropped with ILLOP, but for an
issuer that may not use the opcode, which is checked in between (R87). -/
inductive DecodeError
  /-- The opcode is none of the 32 (R86 a). -/
  | unassigned (opcode : Byte)
  /-- A field its format marks "= 0" is not zero (R86 b). -/
  | reservedField (op : Op)
  /-- HUEDIST or RANDN with `n = 0` (R86 c). -/
  | zeroDivisor (op : Op)
deriving DecidableEq, Repr

/-- The ring field (30_encoding.md R82). -/
def Ring.ofBit (b : BitVec 1) : Ring := if b = 0 then .A else .B
/-- The ring's field value. -/
def Ring.toBit : Ring → BitVec 1
  | .A => 0
  | .B => 1
/-- The direction field (30_encoding.md R83). -/
def Dir.ofBit (b : BitVec 1) : Dir := if b = 0 then .plus else .minus
/-- The direction's field value. -/
def Dir.toBit : Dir → BitVec 1
  | .plus => 0
  | .minus => 1

/-- `OPW[39:32]`, the opcode (30_encoding.md R80). -/
def opcodeOf (w : OpWord) : Byte := w.extractLsb' 32 8
/-- `OPW[31:0]`, the payload (30_encoding.md R80). -/
def payloadOf (w : OpWord) : BitVec 32 := w.extractLsb' 0 32

/-- The opcode map (30_encoding.md R85). -/
def Op.code : Op → Byte
  | .nop => 0x00
  | .setmode => 0x01
  | .adjmode => 0x02
  | .setbri => 0x03
  | .adjbri => 0x04
  | .cfgupdM => 0x05
  | .cfgupdB => 0x06
  | .cfgupdMB => 0x07
  | .frame => 0x08
  | .mappix => 0x10
  | .unmap => 0x11
  | .wrap48 => 0x12
  | .cdist => 0x13
  | .cfwd => 0x14
  | .gamma8 => 0x20
  | .hsv2rgb => 0x21
  | .huedist => 0x22
  | .scale8 => 0x23
  | .scale48 => 0x24
  | .oscTri => 0x30
  | .oscSin => 0x31
  | .oscNoise => 0x32
  | .rand8 => 0x38
  | .randn => 0x39
  | .fill => 0x40
  | .fillring => 0x41
  | .setpix => 0x42
  | .getpix => 0x43
  | .fadeall => 0x44
  | .fadepix => 0x45
  | .addpix => 0x46
  | .present => 0x47

/-- The operation an opcode selects; `none` for the 224 unassigned opcodes (30_encoding.md R85, R86). -/
def opOf (c : Byte) : Option Op :=
  match c.toNat with
  | 0x00 => some .nop
  | 0x01 => some .setmode
  | 0x02 => some .adjmode
  | 0x03 => some .setbri
  | 0x04 => some .adjbri
  | 0x05 => some .cfgupdM
  | 0x06 => some .cfgupdB
  | 0x07 => some .cfgupdMB
  | 0x08 => some .frame
  | 0x10 => some .mappix
  | 0x11 => some .unmap
  | 0x12 => some .wrap48
  | 0x13 => some .cdist
  | 0x14 => some .cfwd
  | 0x20 => some .gamma8
  | 0x21 => some .hsv2rgb
  | 0x22 => some .huedist
  | 0x23 => some .scale8
  | 0x24 => some .scale48
  | 0x30 => some .oscTri
  | 0x31 => some .oscSin
  | 0x32 => some .oscNoise
  | 0x38 => some .rand8
  | 0x39 => some .randn
  | 0x40 => some .fill
  | 0x41 => some .fillring
  | 0x42 => some .setpix
  | 0x43 => some .getpix
  | 0x44 => some .fadeall
  | 0x45 => some .fadepix
  | 0x46 => some .addpix
  | 0x47 => some .present
  | _ => none

/-- Accepts an instruction whose format's reserved fields are zero (30_encoding.md R82, R86). -/
def checkReserved (op : Op) (reservedZero : Bool) (i : Instr) : Except DecodeError Instr :=
  if reservedZero then .ok i else .error (.reservedField op)

/-- Refuses an illegal operand value: the one case is `n = 0` (30_encoding.md R86 c). -/
def checkOperands (i : Instr) : Except DecodeError Instr :=
  if i.wellFormed then .ok i else .error (.zeroDivisor i.op)

/-- The operand fields of each payload format, its reserved fields checked (30_encoding.md R82). -/
def decodePayload (op : Op) (p : BitVec 32) : Except DecodeError Instr :=
  match op with
  | .nop => checkReserved .nop (p == 0) .nop
  | .setmode => checkReserved .setmode (p.extractLsb' 16 16 == 0) (.setmode (p.extractLsb' 0 16))
  | .adjmode => checkReserved .adjmode (p.extractLsb' 1 31 == 0)
      (.adjmode (Dir.ofBit (p.extractLsb' 0 1)))
  | .setbri => checkReserved .setbri (p.extractLsb' 16 16 == 0) (.setbri (p.extractLsb' 0 16))
  | .adjbri => checkReserved .adjbri (p.extractLsb' 1 31 == 0) (.adjbri (Dir.ofBit (p.extractLsb' 0 1)))
  | .cfgupdM => checkReserved .cfgupdM (p.extractLsb' 0 16 == 0) (.cfgupdM (p.extractLsb' 16 16))
  | .cfgupdB => checkReserved .cfgupdB (p.extractLsb' 16 16 == 0) (.cfgupdB (p.extractLsb' 0 16))
  | .cfgupdMB => checkReserved .cfgupdMB true (.cfgupdMB (p.extractLsb' 16 16) (p.extractLsb' 0 16))
  | .frame => checkReserved .frame (p == 0) .frame
  | .mappix => checkReserved .mappix (p.extractLsb' 9 23 == 0 && p.extractLsb' 6 2 == 0)
      (.mappix (Ring.ofBit (p.extractLsb' 8 1)) (p.extractLsb' 0 6))
  | .unmap => checkReserved .unmap (p.extractLsb' 7 25 == 0) (.unmap (p.extractLsb' 0 7))
  | .wrap48 => checkReserved .wrap48 (p.extractLsb' 16 16 == 0) (.wrap48 (p.extractLsb' 0 16))
  | .cdist => checkReserved .cdist (p.extractLsb' 14 18 == 0 && p.extractLsb' 6 2 == 0)
      (.cdist (p.extractLsb' 8 6) (p.extractLsb' 0 6))
  | .cfwd => checkReserved .cfwd (p.extractLsb' 14 18 == 0 && p.extractLsb' 6 2 == 0)
      (.cfwd (p.extractLsb' 8 6) (p.extractLsb' 0 6))
  | .gamma8 => checkReserved .gamma8 (p.extractLsb' 8 24 == 0) (.gamma8 (p.extractLsb' 0 8))
  | .hsv2rgb => checkReserved .hsv2rgb (p.extractLsb' 24 8 == 0)
      (.hsv2rgb (p.extractLsb' 16 8) (p.extractLsb' 8 8) (p.extractLsb' 0 8))
  | .huedist => checkReserved .huedist (p.extractLsb' 24 8 == 0)
      (.huedist (p.extractLsb' 16 8) (p.extractLsb' 8 8) (p.extractLsb' 0 8))
  | .scale8 => checkReserved .scale8 (p.extractLsb' 16 16 == 0)
      (.scale8 (p.extractLsb' 8 8) (p.extractLsb' 0 8))
  | .scale48 => checkReserved .scale48 (p.extractLsb' 8 24 == 0) (.scale48 (p.extractLsb' 0 8))
  | .oscTri => checkReserved .oscTri true
      (.oscTri (p.extractLsb' 24 8) (p.extractLsb' 16 8) (p.extractLsb' 0 16))
  | .oscSin => checkReserved .oscSin true
      (.oscSin (p.extractLsb' 24 8) (p.extractLsb' 16 8) (p.extractLsb' 0 16))
  | .oscNoise => checkReserved .oscNoise true
      (.oscNoise (p.extractLsb' 24 8) (p.extractLsb' 16 8) (p.extractLsb' 0 16))
  | .rand8 => checkReserved .rand8 (p == 0) .rand8
  | .randn => checkReserved .randn (p.extractLsb' 8 24 == 0) (.randn (p.extractLsb' 0 8))
  | .fill => checkReserved .fill (p.extractLsb' 24 8 == 0) (.fill (Rgb.ofWord (p.extractLsb' 0 24)))
  | .fillring => checkReserved .fillring (p.extractLsb' 25 7 == 0)
      (.fillring (Ring.ofBit (p.extractLsb' 24 1)) (Rgb.ofWord (p.extractLsb' 0 24)))
  | .setpix => checkReserved .setpix (p.extractLsb' 31 1 == 0)
      (.setpix (p.extractLsb' 24 7) (Rgb.ofWord (p.extractLsb' 0 24)))
  | .getpix => checkReserved .getpix (p.extractLsb' 31 1 == 0 && p.extractLsb' 0 24 == 0)
      (.getpix (p.extractLsb' 24 7))
  | .fadeall => checkReserved .fadeall (p.extractLsb' 8 24 == 0) (.fadeall (p.extractLsb' 0 8))
  | .fadepix => checkReserved .fadepix (p.extractLsb' 31 1 == 0 && p.extractLsb' 8 16 == 0)
      (.fadepix (p.extractLsb' 24 7) (p.extractLsb' 0 8))
  | .addpix => checkReserved .addpix (p.extractLsb' 31 1 == 0)
      (.addpix (p.extractLsb' 24 7) (Rgb.ofWord (p.extractLsb' 0 24)))
  | .present => checkReserved .present (p.extractLsb' 8 24 == 0) (.present (p.extractLsb' 0 8))

/-- The decoder: opcode, then reserved fields, then `n = 0` (30_encoding.md R85 to R88). The issuer check,
which R87 puts after the opcode, needs the issuer and is made where the word is issued. -/
def decode (w : OpWord) : Except DecodeError Instr :=
  match opOf (opcodeOf w) with
  | none => .error (.unassigned (opcodeOf w))
  | some op =>
    match decodePayload op (payloadOf w) with
    | .ok i => checkOperands i
    | .error e => .error e

/-- The payload of an instruction, format by format (30_encoding.md R82). -/
def Instr.payload : Instr → BitVec 32
  | .nop => 0#32
  | .setmode imm => 0#16 ++ imm
  | .adjmode dir => 0#31 ++ dir.toBit
  | .setbri imm => 0#16 ++ imm
  | .adjbri dir => 0#31 ++ dir.toBit
  | .cfgupdM m => m ++ 0#16
  | .cfgupdB imm => 0#16 ++ imm
  | .cfgupdMB m b => m ++ b
  | .frame => 0#32
  | .mappix ring pos => 0#23 ++ ring.toBit ++ 0#2 ++ pos
  | .unmap idx => 0#25 ++ idx
  | .wrap48 imm => 0#16 ++ imm
  | .cdist a b => 0#18 ++ a ++ 0#2 ++ b
  | .cfwd a b => 0#18 ++ a ++ 0#2 ++ b
  | .gamma8 v => 0#24 ++ v
  | .hsv2rgb a b c => 0#8 ++ a ++ b ++ c
  | .huedist a b c => 0#8 ++ a ++ b ++ c
  | .scale8 v b => 0#16 ++ v ++ b
  | .scale48 v => 0#24 ++ v
  | .oscTri idx scale phase => idx ++ scale ++ phase
  | .oscSin idx scale phase => idx ++ scale ++ phase
  | .oscNoise idx scale phase => idx ++ scale ++ phase
  | .rand8 => 0#32
  | .randn v => 0#24 ++ v
  | .fill rgb => 0#8 ++ rgb.toWord
  | .fillring ring rgb => 0#7 ++ ring.toBit ++ rgb.toWord
  | .setpix idx rgb => 0#1 ++ idx ++ rgb.toWord
  | .getpix idx => 0#1 ++ idx ++ 0#24
  | .fadeall v => 0#24 ++ v
  | .fadepix idx k => 0#1 ++ idx ++ 0#16 ++ k
  | .addpix idx rgb => 0#1 ++ idx ++ rgb.toWord
  | .present v => 0#24 ++ v

/-- The 40-bit word of an instruction: opcode above payload (30_encoding.md R80). -/
def encode (i : Instr) : OpWord := i.op.code ++ i.payload

/-- The instruction the decoder reads from a table row's bits. The spec's word is presented whole on
`cmd_word` and has no byte order (20_memory.md R53), so the table's bit numbers are the word's own; bits
from `nbits` on are 0 (log entry 1). -/
def decodeTableWord (nbits w : Nat) : Option Instr :=
  match decode (BitVec.ofNat 40 (w % 2 ^ nbits)) with
  | .ok i => some i
  | .error _ => none

end Sys2Proof
end

