-- ==== Sys2Proof/Machine/Flags.lean ====
section
/-! DEFINITION. The event bits of DIAG, the issuer classes and the phase code. The hardware has no
condition flags (spec/10_state.md R38); its one status register is DIAG (R36), its mode check is the issuer
class (spec/60_exceptions.md R340). -/

namespace Sys2Proof.Machine

/-- The bit of DIAG an event sets (60_exceptions.md R331). -/
def Event.code : Event → Nat
  | .range => 0
  | .illop => 1
  | .priv => 2
  | .idx => 3
  | .unkmode => 4

/-- DIAG with the bit of an event set, the other bits as they were: the bits are sticky (10_state.md R36). -/
def setEvent (d : BitVec 5) (e : Event) : BitVec 5 := d ||| BitVec.ofNat 5 (2 ^ e.code)

/-- Whether the bit of an event is set. -/
def hasEvent (d : BitVec 5) (e : Event) : Bool := d.getLsbD e.code

/-- The 2-bit value of SEQ (10_state.md R34). -/
def Phase.code : Phase → BitVec 2
  | .wait => 0
  | .render => 1
  | .present => 2

/-- The issuers of each opcode, the table's column (30_encoding.md R85; 60_exceptions.md R340). -/
def issuersOf : Op → List Issuer
  | .nop => [.H]
  | .setmode => [.H]
  | .adjmode => [.H, .B]
  | .setbri => [.H]
  | .adjbri => [.H, .B]
  | .cfgupdM => [.H]
  | .cfgupdB => [.H]
  | .cfgupdMB => [.H]
  | .frame => [.S]
  | .mappix => [.H, .S]
  | .unmap => [.H, .S]
  | .wrap48 => [.H, .S]
  | .cdist => [.H, .S]
  | .cfwd => [.H, .S]
  | .gamma8 => [.H, .S]
  | .hsv2rgb => [.H, .S]
  | .huedist => [.H, .S]
  | .scale8 => [.H, .S]
  | .scale48 => [.H, .S]
  | .oscTri => [.H, .S]
  | .oscSin => [.H, .S]
  | .oscNoise => [.H, .S]
  | .rand8 => [.S]
  | .randn => [.S]
  | .fill => [.S]
  | .fillring => [.S]
  | .setpix => [.S]
  | .getpix => [.S]
  | .fadeall => [.S]
  | .fadepix => [.S]
  | .addpix => [.S]
  | .present => [.S]

/-- Whether an issuer may use an opcode (30_encoding.md R87 check 2). -/
def mayIssue (iss : Issuer) (op : Op) : Bool := (issuersOf op).contains iss

end Sys2Proof.Machine
end

