-- ==== Sys2Proof/Machine/Ops.lean ====
section
/-! DEFINITION. The named operations over the frame buffer and the registers: reading and writing a pixel,
raising an event, answering a result, taking a draw, and the issuer check (spec/00_scope.md R13, R14;
spec/20_memory.md R50 to R57; spec/60_exceptions.md R330). -/

namespace Sys2Proof.Machine

/-- What every meaning answers. -/
abbrev Result := Host.Outcome State Fault Refusal

/-! ### The frame buffer as memory -/

/-- `MemRead(i, 1)`: the pixel at an index; what is not listed is black, the reset value (00_scope.md R13,
10_state.md R33). -/
def Memory.read : Memory → Nat → Rgb
  | [], _ => Rgb.black
  | (j, d) :: t, i => if i = j then d else Memory.read t i

/-- `MemWrite(i, 1, c)`, keeping the canonical form (00_scope.md R13): writing black, what an unlisted index
reads as, removes the entry. -/
def Memory.write : Memory → Nat → Rgb → Memory
  | [], i, c => if c.isBlack then [] else [(i, c)]
  | (j, d) :: t, i, c =>
    if i < j then (if c.isBlack then (j, d) :: t else (i, c) :: (j, d) :: t)
    else if i = j then (if c.isBlack then t else (i, c) :: t)
    else (j, d) :: Memory.write t i c

/-- The canonical form from a lower bound on: indices at least `lo`, strictly rising, below 96, no entry
black. -/
def Memory.wfFrom : Nat → Memory → Bool
  | _, [] => true
  | lo, (j, d) :: t => decide (lo ≤ j) && decide (j < numPix) && !d.isBlack && Memory.wfFrom (j + 1) t

/-- The canonical form. -/
def Memory.wf (m : Memory) : Bool := Memory.wfFrom 0 m

/-- Read, modify, write the `n` pixels from `lo` on, in ascending index order, the loop of FILL, FILLRING
and FADEALL (20_memory.md R52, R55). No pixel of the span is visited twice, so what is read is what the buffer
held before the loop. -/
def Memory.mapSpan (f : Rgb → Rgb) (lo : Nat) (m : Memory) : Nat → Memory
  | 0 => m
  | n + 1 => (Memory.mapSpan f lo m n).write (lo + n) (f (m.read (lo + n)))

/-! ### Channel arithmetic of the blender and fade unit -/

/-- `max(0, v - k)` of one channel (43_frame_buffer.md R185). -/
def fadeChannel (k v : Byte) : Byte := BitVec.ofNat 8 (v.toNat - k.toNat)

/-- `min(255, v + c)` of one channel (43_frame_buffer.md R187). -/
def addChannel (c v : Byte) : Byte := BitVec.ofNat 8 (min 255 (v.toNat + c.toNat))

/-- The fade of a pixel, every channel on its own (43_frame_buffer.md R185). -/
def fadeRgb (k : Byte) (p : Rgb) : Rgb := ⟨fadeChannel k p.r, fadeChannel k p.g, fadeChannel k p.b⟩

/-- The additive blend of a colour into a pixel, every channel on its own (43_frame_buffer.md R187). -/
def addRgb (c p : Rgb) : Rgb := ⟨addChannel c.r p.r, addChannel c.g p.g, addChannel c.b p.b⟩

/-! ### What a mode procedure may touch -/

/-- What a mode procedure may touch: the MS bank, the frame buffer, DIAG and the random source
(44_mode_sequencer.md R223). It cannot write MODE, BRIGHT, LASTMODE, DELAY or SEQ, for they are not here. -/
structure Canvas where
  x : MsBank
  fb : Memory
  diag : BitVec 5
  draws : List (BitVec 16)
  drawPos : Nat
deriving DecidableEq, Repr

/-- The part of a state a mode procedure works on. -/
def State.canvas (s : State) : Canvas := ⟨s.x, s.fb, s.diag, s.draws, s.drawPos⟩

/-- A state with that part put back. -/
def State.withCanvas (s : State) (c : Canvas) : State :=
  { s with x := c.x, fb := c.fb, diag := c.diag, draws := c.draws, drawPos := c.drawPos }

/-- `raise e` on a canvas (60_exceptions.md R330). -/
def Canvas.raise (e : Event) (c : Canvas) : Canvas := { c with diag := setEvent c.diag e }

/-- `draw16()`: the next 16-bit word of the random source, the position moving on by one (00_scope.md R14,
42_oscillators.md R160). The words listed come first, then the free stream (log entry 4). -/
def Canvas.draw16 (c : Canvas) : BitVec 16 × Canvas :=
  (c.draws.headD (Config.randStream c.drawPos), { c with draws := c.draws.tail, drawPos := c.drawPos + 1 })

/-- RAND8: the high byte of a draw (42_oscillators.md R161). -/
def Canvas.rand8 (c : Canvas) : Byte × Canvas := (BitVec.ofNat 8 (c.draw16.1.toNat / 256), c.draw16.2)

/-- RANDN: `(d * n) >> 16` of a draw (42_oscillators.md R162). -/
def Canvas.randN (n : Byte) (c : Canvas) : Byte × Canvas :=
  (BitVec.ofNat 8 ((c.draw16.1.toNat * n.toNat) / 65536), c.draw16.2)

/-- FILL: every pixel takes the colour (43_frame_buffer.md R181). -/
def Canvas.fill (rgb : Rgb) (c : Canvas) : Canvas :=
  { c with fb := Memory.mapSpan (fun _ => rgb) 0 c.fb numPix }

/-- FILLRING: the 48 pixels of a ring's span take the colour (43_frame_buffer.md R182). -/
def Canvas.fillRing (ring : Ring) (rgb : Rgb) (c : Canvas) : Canvas :=
  { c with fb := Memory.mapSpan (fun _ => rgb) (match ring with | .A => 0 | .B => ringSize) c.fb ringSize }

/-- FADEALL: every pixel fades (43_frame_buffer.md R185). -/
def Canvas.fadeAll (k : Byte) (c : Canvas) : Canvas :=
  { c with fb := Memory.mapSpan (fadeRgb k) 0 c.fb numPix }

/-- A read-modify-write of one pixel; an index of 96 or more raises IDX and touches nothing
(20_memory.md R54, 43_frame_buffer.md R180). -/
def Canvas.updatePix (idx : BitVec 7) (f : Rgb → Rgb) (c : Canvas) : Canvas :=
  if idx.toNat < numPix then { c with fb := c.fb.write idx.toNat (f (c.fb.read idx.toNat)) }
  else c.raise .idx

/-- SETPIX (43_frame_buffer.md R183). -/
def Canvas.setPix (idx : BitVec 7) (rgb : Rgb) (c : Canvas) : Canvas := c.updatePix idx (fun _ => rgb)

/-- FADEPIX (43_frame_buffer.md R186). -/
def Canvas.fadePix (idx : BitVec 7) (k : Byte) (c : Canvas) : Canvas := c.updatePix idx (fadeRgb k)

/-- ADDPIX (43_frame_buffer.md R187). -/
def Canvas.addPix (idx : BitVec 7) (rgb : Rgb) (c : Canvas) : Canvas := c.updatePix idx (addRgb rgb)

/-- GETPIX: the pixel, or (0,0,0) with IDX (43_frame_buffer.md R184). -/
def Canvas.getPix (idx : BitVec 7) (c : Canvas) : Rgb × Canvas :=
  if idx.toNat < numPix then (c.fb.read idx.toNat, c) else (Rgb.black, c.raise .idx)

/-! ### Raising an event, answering a result, the issuer check -/

/-- TAKING AN EVENT, the one shared operation: the event's bit of DIAG is set and nothing else changes. No
state is saved, control goes nowhere, there is nothing to return from (60_exceptions.md R330). -/
def State.raise (e : Event) (s : State) : State := { s with diag := setEvent s.diag e }

/-- The result of an operation: the response word when the host issued it, the sequencer's own result when
the sequencer did (30_encoding.md R84). DESIGN CHOICE (log entry 27): the layout of R84 is the response word's; the
sequencer is given UNMAP's valid, ring and position in the same word. -/
def State.respond (r : RspWord) (s : State) : State :=
  { s with
    rsp := match s.issuer with | .H => some r | .B => s.rsp | .S => s.rsp
    sRes := match s.issuer with | .H => s.sRes | .B => s.sRes | .S => some r }

/-- The issuer check of a word: an issuer that may not use the opcode makes the word dropped with PRIV,
before any operand check (30_encoding.md R87; 60_exceptions.md R341). -/
def issued (op : Op) (s : State) (effect : State) : Result :=
  if mayIssue s.issuer op then .next effect else .next (s.raise .priv)

end Sys2Proof.Machine
end

