-- ==== Sys2Proof/Machine/ModeController.lean ====
section
/-! DEFINITION. The configuration operations NOP, SETMODE, ADJMODE, SETBRI, ADJBRI, CFGUPD.M, CFGUPD.B,
CFGUPD.MB, and the button words (spec/47_mode_controller.md R300 to R310). Each is one indivisible step. -/

namespace Sys2Proof.Machine

/-- `0 <= i and i < 27` (47_mode_controller.md R302). -/
def modeInRange (i : Int) : Bool := decide (0 ≤ i) && decide (i < 27)

/-- `0 <= b and b <= 255` (R307). -/
def brightInRange (b : Int) : Bool := decide (0 ≤ b) && decide (b ≤ 255)

/-- `min(255, max(0, b))` (R304). -/
def clampBright (b : Int) : Byte := BitVec.ofInt 8 (min 255 (max 0 b))

/-- An absolute mode request: written in range, else dropped with RANGE, never wrapped (R302, R306,
90_conflicts.md C6). -/
def State.requestMode (i : Int) (s : State) : State :=
  if modeInRange i then { s with mode := BitVec.ofInt 5 i } else s.raise .range

/-- A network brightness request: written in range, else dropped with RANGE, not clamped (R307,
90_conflicts.md C1). -/
def State.requestBright (b : Int) (s : State) : State :=
  if brightInRange b then { s with bright := BitVec.ofInt 8 b } else s.raise .range

/-- NOP (R301). -/
def execNop (s : State) : Result := issued .nop s s

/-- SETMODE (R302). -/
def execSetmode (imm16 : BitVec 16) (s : State) : Result :=
  issued .setmode s (s.requestMode (sext16 imm16))

/-- ADJMODE: the mode steps by one and wraps in 0..26 (R303). -/
def execAdjmode (dir : Dir) (s : State) : Result :=
  issued .adjmode s
    { s with
      mode := match dir with
        | .plus => if s.mode = 26 then 0 else s.mode + 1
        | .minus => if s.mode = 0 then 26 else s.mode - 1 }

/-- SETBRI: the brightness is clamped (R304). -/
def execSetbri (imm16 : BitVec 16) (s : State) : Result :=
  issued .setbri s { s with bright := clampBright (sext16 imm16) }

/-- ADJBRI: the brightness steps by ten, clamped, without 8-bit wrap (R305). -/
def execAdjbri (dir : Dir) (s : State) : Result :=
  issued .adjbri s { s with bright := clampBright (s.bright.toNat + 10 * dirSign dir) }

/-- CFGUPD.M (R306). -/
def execCfgupdM (mode16 : BitVec 16) (s : State) : Result :=
  issued .cfgupdM s (s.requestMode (sext16 mode16))

/-- CFGUPD.B (R307). -/
def execCfgupdB (imm16 : BitVec 16) (s : State) : Result :=
  issued .cfgupdB s (s.requestBright (sext16 imm16))

/-- CFGUPD.MB: both fields in one step, each judged on its own (R308). -/
def execCfgupdMB (mode16 bri16 : BitVec 16) (s : State) : Result :=
  issued .cfgupdMB s ((s.requestMode (sext16 mode16)).requestBright (sext16 bri16))

/-- The word a button pulse forms (30_encoding.md R92, 47_mode_controller.md R309). -/
def Button.word : Button → OpWord
  | .modeInc => encode (.adjmode .plus)
  | .modeDec => encode (.adjmode .minus)
  | .briInc => encode (.adjbri .plus)
  | .briDec => encode (.adjbri .minus)

end Sys2Proof.Machine
end

