-- ==== Sys2Proof/Machine/Color.lean ====
section
/-! DEFINITION. The colour utility operations GAMMA8, HSV2RGB, HUEDIST, SCALE8, SCALE48
(spec/41_color_utilities.md R130 to R138). All five are pure. -/

namespace Sys2Proof.Machine

/-- `sc255(a, b) = (a * b) / 255` with floor division (R132). -/
def sc255 (a b : Byte) : Byte := BitVec.ofNat 8 (a.toNat * b.toNat / 255)

/-- The channels of the six sectors (R133), from the sector, the value and the three levels. -/
def sectorRgb (sec : Nat) (v p q t : Byte) : Rgb :=
  match sec with
  | 0 => ⟨v, t, p⟩
  | 1 => ⟨q, v, p⟩
  | 2 => ⟨p, v, t⟩
  | 3 => ⟨p, q, v⟩
  | 4 => ⟨t, p, v⟩
  | _ => ⟨v, p, q⟩

/-- HSV2RGB: the six-sector conversion in integers (R133). -/
def hsv2rgb (h s v : Byte) : Rgb :=
  let h6 := 6 * h.toNat
  let f : Byte := BitVec.ofNat 8 (h6 % 256)
  sectorRgb (h6 / 256) v (sc255 v (255 - s)) (sc255 v (255 - sc255 s f)) (sc255 v (255 - sc255 s (255 - f)))

/-- HUEDIST: `(start + (256 * i) / n) mod 256` (R135). -/
def hueDist (start n i : Byte) : Byte := BitVec.ofNat 8 (start.toNat + 256 * i.toNat / n.toNat)

/-- SCALE48: `(v * 48) >> 8` (R138). -/
def scale48 (v : Byte) : Nat := v.toNat * 48 / 256

/-- The brightness scaling of a pixel, channel by channel (R137, 43_frame_buffer.md R188). -/
def scaleRgb (b : Byte) (p : Rgb) : Rgb := ⟨sc255 p.r b, sc255 p.g b, sc255 p.b b⟩

/-- GAMMA8 (41_color_utilities.md R131). -/
def execGamma8 (v : Byte) (s : State) : Result :=
  issued .gamma8 s (s.respond ((lookup gammaLut v).setWidth 32))

/-- HSV2RGB (R133). -/
def execHsv2rgb (h sat v : Byte) (s : State) : Result :=
  issued .hsv2rgb s (s.respond ((hsv2rgb h sat v).toWord.setWidth 32))

/-- HUEDIST; `n = 0` is dropped with ILLOP (R135, 30_encoding.md R86). -/
def execHuedist (start n i : Byte) (s : State) : Result :=
  issued .huedist s
    (if n = 0 then s.raise .illop else s.respond ((hueDist start n i).setWidth 32))

/-- SCALE8 (R137). -/
def execScale8 (v b : Byte) (s : State) : Result :=
  issued .scale8 s (s.respond ((sc255 v b).setWidth 32))

/-- SCALE48 (R138). -/
def execScale48 (v : Byte) (s : State) : Result :=
  issued .scale48 s (s.respond (BitVec.ofNat 32 (scale48 v)))

end Sys2Proof.Machine
end

