-- ==== Sys2Proof/Machine/FrameBuffer.lean ====
section
/-! DEFINITION. The frame-buffer operations FILL, FILLRING, SETPIX, GETPIX, FADEALL, FADEPIX, ADDPIX and
PRESENT (spec/43_frame_buffer.md R180 to R189). Issuer S only. -/

namespace Sys2Proof.Machine

/-- FILL (43_frame_buffer.md R181). -/
def execFill (rgb : Rgb) (s : State) : Result := issued .fill s (s.withCanvas (s.canvas.fill rgb))

/-- FILLRING (R182). -/
def execFillring (ring : Ring) (rgb : Rgb) (s : State) : Result :=
  issued .fillring s (s.withCanvas (s.canvas.fillRing ring rgb))

/-- SETPIX (R183). -/
def execSetpix (idx : BitVec 7) (rgb : Rgb) (s : State) : Result :=
  issued .setpix s (s.withCanvas (s.canvas.setPix idx rgb))

/-- GETPIX: the pixel goes to the sequencer (R184). -/
def execGetpix (idx : BitVec 7) (s : State) : Result :=
  issued .getpix s
    ((s.withCanvas (s.canvas.getPix idx).2).respond ((s.canvas.getPix idx).1.toWord.setWidth 32))

/-- FADEALL (R185). -/
def execFadeall (k : Byte) (s : State) : Result := issued .fadeall s (s.withCanvas (s.canvas.fadeAll k))

/-- FADEPIX (R186). -/
def execFadepix (idx : BitVec 7) (k : Byte) (s : State) : Result :=
  issued .fadepix s (s.withCanvas (s.canvas.fadePix idx k))

/-- ADDPIX (R187). -/
def execAddpix (idx : BitVec 7) (rgb : Rgb) (s : State) : Result :=
  issued .addpix s (s.withCanvas (s.canvas.addPix idx rgb))

/-! ### The hand-off -/

/-- How many of `want` pixels the consumer takes now (70_reset_and_hazards.md R384). -/
def Consumer.takes (c : Consumer) (want : Nat) : Nat :=
  match c with
  | .ready => want
  | .accepts n => min n want

/-- The consumer after it took `k` pixels. -/
def Consumer.after (c : Consumer) (k : Nat) : Consumer :=
  match c with
  | .ready => .ready
  | .accepts n => .accepts (n - k)

/-- Pixel `i` on its way out: the stored pixel scaled by the brightness of the PRESENT; the frame buffer is
not written (43_frame_buffer.md R188). -/
def State.outPixel (s : State) (i : Nat) : Rgb := scaleRgb s.outBright (s.fb.read i)

/-- The end of the hand-off, when the 96th pixel has been accepted: the frame is appended to OUT_LOG, DELAY
takes the delay of the frame in progress, SEQ goes to WAIT (43_frame_buffer.md R188, 44_mode_sequencer.md
R210 steps 8 and 9, 10_state.md R34). A PRESENT outside a FRAME leaves DELAY (log entry 14). -/
def State.finishFrame (s : State) : State :=
  { s with
    outLog := s.outLog ++ [⟨s.handoff, s.frameDelay.getD s.delay⟩]
    delay := s.frameDelay.getD s.delay
    frameDelay := none
    handoff := []
    seq := .wait }

/-- The pixels the consumer takes now are handed over in ascending index from `out_idx` on; when it has
taken the 96th the frame is finished, else the sequencer waits in PRESENT without limit
(43_frame_buffer.md R188, 20_memory.md R67, 70_reset_and_hazards.md R384). -/
def State.handOver (s : State) : State :=
  let want := numPix - s.handoff.length
  let k := s.consumer.takes want
  let s' := { s with
    handoff := s.handoff ++ (List.range k).map (fun j => s.outPixel (s.handoff.length + j))
    consumer := s.consumer.after k }
  if k = want then s'.finishFrame else s'

/-- The start of a hand-off at brightness `b`: `pc <- PRESENT`, pixel 0 first (43_frame_buffer.md R188). -/
def State.startPresent (b : Byte) (s : State) : State :=
  { s with seq := .present, outBright := b, handoff := [] }

/-- PRESENT (43_frame_buffer.md R188). -/
def execPresent (b : Byte) (s : State) : Result := issued .present s (s.startPresent b).handOver

end Sys2Proof.Machine
end

