-- ==== Sys2Proof/Machine/Geometry.lean ====
section
/-! DEFINITION. The ring geometry operations MAPPIX, UNMAP, WRAP48, CDIST, CFWD
(spec/40_ring_geometry.md R110 to R117). All five are pure. -/

namespace Sys2Proof.Machine

/-- MAPPIX: `p` on Ring A, `48 + (47 - p)` on Ring B (R111). -/
def mapPix (ring : Ring) (pos : BitVec 6) : BitVec 7 :=
  match ring with
  | .A => BitVec.ofNat 7 (reducePos pos)
  | .B => BitVec.ofNat 7 (48 + (47 - reducePos pos))

/-- UNMAP: the ring and logical position of an index, or nothing for 96 to 127 (R112). -/
def unmapPix (idx : BitVec 7) : Option (Ring × BitVec 6) :=
  if idx.toNat ≤ 47 then some (.A, BitVec.ofNat 6 idx.toNat)
  else if idx.toNat ≤ 95 then some (.B, BitVec.ofNat 6 (95 - idx.toNat))
  else none

/-- The response word of UNMAP: valid in bit 31, ring in bit 8, position in bits 5..0
(30_encoding.md R84). -/
def unmapWord : Option (Ring × BitVec 6) → RspWord
  | some (ring, pos) => 1#1 ++ 0#22 ++ ring.toBit ++ 0#2 ++ pos
  | none => 0

/-- WRAP48: the Euclidean remainder modulo 48 (R113). -/
def wrap48 (imm16 : BitVec 16) : Nat := (sext16 imm16 % 48).toNat

/-- CFWD: the forward distance from `a` to `b`, in 0..47 (R115). -/
def cfwd (a b : BitVec 6) : Nat := (((reducePos b : Int) - (reducePos a : Int)) % 48).toNat

/-- CDIST: the shorter way round, in 0..24 (R114); its `d` is the forward distance of R115. -/
def cdist (a b : BitVec 6) : Nat := if cfwd a b = 0 then 0 else min (cfwd a b) (48 - cfwd a b)

/-- MAPPIX (40_ring_geometry.md R111). -/
def execMappix (ring : Ring) (pos : BitVec 6) (s : State) : Result :=
  issued .mappix s (s.respond ((mapPix ring pos).setWidth 32))

/-- UNMAP (R112). -/
def execUnmap (idx : BitVec 7) (s : State) : Result :=
  issued .unmap s (s.respond (unmapWord (unmapPix idx)))

/-- WRAP48 (R113). -/
def execWrap48 (imm16 : BitVec 16) (s : State) : Result :=
  issued .wrap48 s (s.respond (BitVec.ofNat 32 (wrap48 imm16)))

/-- CDIST (R114). -/
def execCdist (a b : BitVec 6) (s : State) : Result :=
  issued .cdist s (s.respond (BitVec.ofNat 32 (cdist a b)))

/-- CFWD (R115). -/
def execCfwd (a b : BitVec 6) (s : State) : Result :=
  issued .cfwd s (s.respond (BitVec.ofNat 32 (cfwd a b)))

end Sys2Proof.Machine
end

