-- ==== Sys2Proof/Machine/Oscillator.lean ====
section
/-! DEFINITION. The oscillator operations OSC.TRI, OSC.SIN, OSC.NOISE, which are pure, and the draw
operations RAND8 and RANDN (spec/42_oscillators.md R150 to R162). -/

namespace Sys2Proof.Machine

/-- `arg = (idx * scale + phase) mod 65536` (R150). -/
def oscArg (idx scale : Byte) (phase : BitVec 16) : Nat :=
  (idx.toNat * scale.toNat + phase.toNat) % 65536

/-- The triangle of the low byte of the argument (R152). -/
def triWave (arg : Nat) : Byte :=
  let x := arg % 256
  let t := if x ≤ 127 then x else 255 - x
  BitVec.ofNat 8 (2 * t + t / 64)

/-- The sine table at the low byte of the argument (R154). -/
def sinWave (lut : Vector Byte 256) (arg : Nat) : Byte := lookup lut (BitVec.ofNat 8 arg)

/-- Value noise: the lattice bytes of the cell and the next, joined by a straight line (R155, R157). -/
def noiseWave (lut : Vector Byte 256) (arg : Nat) : Byte :=
  let f := arg % 256
  let a := (lookup lut (BitVec.ofNat 8 (arg / 256))).toNat
  let b := (lookup lut (BitVec.ofNat 8 (arg / 256 + 1))).toNat
  BitVec.ofNat 8 ((a * (256 - f) + b * f) / 256)

/-- OSC.TRI (42_oscillators.md R152). -/
def execOscTri (idx scale : Byte) (phase : BitVec 16) (s : State) : Result :=
  issued .oscTri s (s.respond ((triWave (oscArg idx scale phase)).setWidth 32))

/-- OSC.SIN (R154). -/
def execOscSin (idx scale : Byte) (phase : BitVec 16) (s : State) : Result :=
  issued .oscSin s (s.respond ((sinWave s.cfg.sinLut (oscArg idx scale phase)).setWidth 32))

/-- OSC.NOISE (R157). -/
def execOscNoise (idx scale : Byte) (phase : BitVec 16) (s : State) : Result :=
  issued .oscNoise s (s.respond ((noiseWave s.cfg.hashLut (oscArg idx scale phase)).setWidth 32))

/-- RAND8: one draw, its high byte to the sequencer (R161). -/
def execRand8 (s : State) : Result :=
  issued .rand8 s ((s.withCanvas s.canvas.rand8.2).respond (s.canvas.rand8.1.setWidth 32))

/-- RANDN: one draw, reduced below `n`, to the sequencer; `n = 0` is dropped with ILLOP and consumes no
draw (R162). -/
def execRandn (n : Byte) (s : State) : Result :=
  issued .randn s
    (if n = 0 then s.raise .illop
     else (s.withCanvas (s.canvas.randN n).2).respond ((s.canvas.randN n).1.setWidth 32))

end Sys2Proof.Machine
end

