-- ==== Sys2Proof/Machine/Procedures.lean ====
section
/-! DEFINITION. Performing a mode procedure: an operation it issues, its arithmetic, its steps
(spec/44_mode_sequencer.md R214, R223). -/

namespace Sys2Proof.Machine

/-! ### The MS registers by number -/

/-- `x[i]` (10_state.md R30). -/
def MsBank.get (x : MsBank) : Fin 4 → BitVec 16
  | 0 => x.x0
  | 1 => x.x1
  | 2 => x.x2
  | 3 => x.x3

/-- `x[i] <- v` (10_state.md R30). -/
def MsBank.set (x : MsBank) (i : Fin 4) (v : BitVec 16) : MsBank :=
  match i with
  | 0 => { x with x0 := v }
  | 1 => { x with x1 := v }
  | 2 => { x with x2 := v }
  | 3 => { x with x3 := v }

/-! ### An operation issued inside a procedure -/

/-- The result and the effect of an operation the sequencer issues inside a procedure: the shared operation of its
opcode; an illegal `n = 0` is dropped with ILLOP (30_encoding.md R84, R86). An operation that is no part of a
procedure (44_mode_sequencer.md R223) has none; `ProcOp` forms no such operation. DESIGN CHOICE (log entry 27):
UNMAP's three-part result is the word R84 gives the host. -/
def Canvas.issue (cfg : Config.Params) (i : Instr) (c : Canvas) : RspWord × Canvas :=
  match i with
  | .nop => (0, c)
  | .setmode _ => (0, c)
  | .adjmode _ => (0, c)
  | .setbri _ => (0, c)
  | .adjbri _ => (0, c)
  | .cfgupdM _ => (0, c)
  | .cfgupdB _ => (0, c)
  | .cfgupdMB _ _ => (0, c)
  | .frame => (0, c)
  | .mappix ring pos => ((mapPix ring pos).setWidth 32, c)
  | .unmap idx => (unmapWord (unmapPix idx), c)
  | .wrap48 imm16 => (BitVec.ofNat 32 (wrap48 imm16), c)
  | .cdist a b => (BitVec.ofNat 32 (cdist a b), c)
  | .cfwd a b => (BitVec.ofNat 32 (cfwd a b), c)
  | .gamma8 v => ((lookup gammaLut v).setWidth 32, c)
  | .hsv2rgb h sat v => ((hsv2rgb h sat v).toWord.setWidth 32, c)
  | .huedist start n i => if n = 0 then (0, c.raise .illop) else ((hueDist start n i).setWidth 32, c)
  | .scale8 v b => ((sc255 v b).setWidth 32, c)
  | .scale48 v => (BitVec.ofNat 32 (scale48 v), c)
  | .oscTri idx scale phase => ((triWave (oscArg idx scale phase)).setWidth 32, c)
  | .oscSin idx scale phase => ((sinWave cfg.sinLut (oscArg idx scale phase)).setWidth 32, c)
  | .oscNoise idx scale phase => ((noiseWave cfg.hashLut (oscArg idx scale phase)).setWidth 32, c)
  | .rand8 => (c.rand8.1.setWidth 32, c.rand8.2)
  | .randn n => if n = 0 then (0, c.raise .illop) else ((c.randN n).1.setWidth 32, (c.randN n).2)
  | .fill rgb => (0, c.fill rgb)
  | .fillring ring rgb => (0, c.fillRing ring rgb)
  | .setpix idx rgb => (0, c.setPix idx rgb)
  | .getpix idx => ((c.getPix idx).1.toWord.setWidth 32, (c.getPix idx).2)
  | .fadeall k => (0, c.fadeAll k)
  | .fadepix idx k => (0, c.fadePix idx k)
  | .addpix idx rgb => (0, c.addPix idx rgb)
  | .present _ => (0, c)

/-! ### The arithmetic and the steps -/

/-- A procedure at work: its own names, the latest value first, and the canvas. -/
structure Work where
  vars : List (Nat × Int)
  canvas : Canvas
deriving DecidableEq, Repr

/-- `v <- n`. -/
def Work.assign (v : Nat) (n : Int) (w : Work) : Work := { w with vars := (v, n) :: w.vars }

/-- The value of an expression (44_mode_sequencer.md R214). -/
def evalExpr (w : Work) : Expr → Int
  | .const n => n
  | .reg i => (w.canvas.x.get i).toNat
  | .var v => (w.vars.lookup v).getD 0
  | .add a b => evalExpr w a + evalExpr w b
  | .sub a b => evalExpr w a - evalExpr w b
  | .mul a b => evalExpr w a * evalExpr w b
  | .div a b => evalExpr w a / evalExpr w b
  | .mod a b => evalExpr w a % evalExpr w b
  | .xor a b => (BitVec.ofInt 16 (evalExpr w a) ^^^ BitVec.ofInt 16 (evalExpr w b)).toNat
  | .less a b => if evalExpr w a < evalExpr w b then 1 else 0
  | .same a b => if evalExpr w a = evalExpr w b then 1 else 0

/-- A field of `n` bits filled by an expression: its low bits. -/
def fieldOf (n : Nat) (w : Work) (e : Expr) : BitVec n := BitVec.ofInt n (evalExpr w e)

/-- The ring field filled by an expression (30_encoding.md R82). -/
def ringOf (w : Work) (e : Expr) : Ring := Ring.ofBit (fieldOf 1 w e)

/-- The colour field filled by an expression (20_memory.md R53). -/
def rgbOf (w : Work) (e : Expr) : Rgb := Rgb.ofWord (fieldOf 24 w e)

/-- The operation formed, its fields filled (30_encoding.md R80, R82). -/
def formOp (w : Work) : ProcOp → Instr
  | .mappix ring pos => .mappix (ringOf w ring) (fieldOf 6 w pos)
  | .unmap idx => .unmap (fieldOf 7 w idx)
  | .wrap48 imm16 => .wrap48 (fieldOf 16 w imm16)
  | .cdist a b => .cdist (fieldOf 6 w a) (fieldOf 6 w b)
  | .cfwd a b => .cfwd (fieldOf 6 w a) (fieldOf 6 w b)
  | .gamma8 v => .gamma8 (fieldOf 8 w v)
  | .hsv2rgb h sat v => .hsv2rgb (fieldOf 8 w h) (fieldOf 8 w sat) (fieldOf 8 w v)
  | .huedist start n i => .huedist (fieldOf 8 w start) (fieldOf 8 w n) (fieldOf 8 w i)
  | .scale8 v b => .scale8 (fieldOf 8 w v) (fieldOf 8 w b)
  | .scale48 v => .scale48 (fieldOf 8 w v)
  | .oscTri idx scale phase => .oscTri (fieldOf 8 w idx) (fieldOf 8 w scale) (fieldOf 16 w phase)
  | .oscSin idx scale phase => .oscSin (fieldOf 8 w idx) (fieldOf 8 w scale) (fieldOf 16 w phase)
  | .oscNoise idx scale phase => .oscNoise (fieldOf 8 w idx) (fieldOf 8 w scale) (fieldOf 16 w phase)
  | .rand8 => .rand8
  | .randn n => .randn (fieldOf 8 w n)
  | .fill rgb => .fill (rgbOf w rgb)
  | .fillring ring rgb => .fillring (ringOf w ring) (rgbOf w rgb)
  | .setpix idx rgb => .setpix (fieldOf 7 w idx) (rgbOf w rgb)
  | .getpix idx => .getpix (fieldOf 7 w idx)
  | .fadeall k => .fadeall (fieldOf 8 w k)
  | .fadepix idx k => .fadepix (fieldOf 7 w idx) (fieldOf 8 w k)
  | .addpix idx rgb => .addpix (fieldOf 7 w idx) (rgbOf w rgb)

/-- One operation of a procedure: performed on the canvas, its result to the name `v`. -/
def Work.issue (cfg : Config.Params) (v : Nat) (o : ProcOp) (w : Work) : Work :=
  Work.assign v (w.canvas.issue cfg (formOp w o)).1.toNat
    { w with canvas := (w.canvas.issue cfg (formOp w o)).2 }

/-- `x[i] <- n`. -/
def Work.write (i : Fin 4) (n : Int) (w : Work) : Work :=
  { w with canvas := { w.canvas with x := w.canvas.x.set i (BitVec.ofInt 16 n) } }

/-- The steps of a procedure, in the order written (44_mode_sequencer.md R226). -/
def runProc (cfg : Config.Params) : Proc → Work → Work
  | .done, w => w
  | .issue v o, w => w.issue cfg v o
  | .assign v e, w => w.assign v (evalExpr w e)
  | .write i e, w => w.write i (evalExpr w e)
  | .seq p q, w => runProc cfg q (runProc cfg p w)
  | .cond e p q, w => if evalExpr w e ≠ 0 then runProc cfg p w else runProc cfg q w
  | .loop v count body, w =>
    (List.range (evalExpr w count).toNat).foldl (fun w j => runProc cfg body (w.assign v j)) w

/-- A procedure from its first step to its last. -/
def performProc (cfg : Config.Params) (p : Proc) (c : Canvas) : Canvas := (runProc cfg p ⟨[], c⟩).canvas

end Sys2Proof.Machine
end

