-- ==== Sys2Proof/Machine/Modes.lean ====
section
/-! DEFINITION. The modes: the reset and render procedures of the 27 modes of the default table, and the selection by
MODE_TABLE
(spec/44_mode_sequencer.md R213 to R226, spec/45_modes_0_13.md, spec/46_modes_14_26.md). -/

namespace Sys2Proof.Machine

/-! ### Shared procedures -/

/-- The MS bank is written, the rest is left (10_state.md R30). -/
def Canvas.withX (x : MsBank) (c : Canvas) : Canvas := { c with x := x }

/-- `HSV(h, 255, 255)` with the hue a number, wrapping modulo 256 (00_scope.md R15, R220). -/
def hsvFull (h : Nat) : Rgb := hsv2rgb (byteField h) 255 255

/-- `PLOT2 p, c`: the pixel at logical position `p` of both rings (30_encoding.md R91). -/
def Canvas.plot2 (p : Nat) (rgb : Rgb) (c : Canvas) : Canvas :=
  (c.setPix (mapPix .A (posField p)) rgb).setPix (mapPix .B (posField p)) rgb

/-- `ADD2 p, c` (30_encoding.md R91). -/
def Canvas.add2 (p : Nat) (rgb : Rgb) (c : Canvas) : Canvas :=
  (c.addPix (mapPix .A (posField p)) rgb).addPix (mapPix .B (posField p)) rgb

/-- A loop of a mode procedure, its counter ascending from 0. -/
def loop (n : Nat) (body : Nat → Canvas → Canvas) (c : Canvas) : Canvas :=
  (List.range n).foldl (fun c p => body p c) c

/-- The test of ROTATE: position `p` lies within `w` of one of the `n` window centres
(44_mode_sequencer.md R224). -/
def inWindow (n w off p : Nat) : Bool :=
  (List.range n).any fun j =>
    decide (cdist (posField p) (posField ((off + j * (48 / n)) % 48)) ≤ w)

/-- `ROTATE(n, w, step, bg, invert, fixed, hstep)` (44_mode_sequencer.md R224): drawn from the registers as
they stand, which advance afterwards. -/
def rotate (n w step : Nat) (bg : Byte) (invert : Bool) (fixed : Option Rgb) (hstep : Nat)
    (c : Canvas) : Canvas :=
  let c1 := if bg = 0 then c.fill Rgb.black else c.fadeAll bg
  let col := fixed.getD (hsvFull c.x.x1.toNat)
  let c2 := loop 48 (fun p c' => if inWindow n w c.x.x0.toNat p != invert then c'.plot2 p col else c') c1
  c2.withX { c.x with x0 := addMod c.x.x0 step 48, x1 := addMod c.x.x1 hstep 256 }

/-- `BOUNCE_MOVE` (44_mode_sequencer.md R225): one step, then the direction reverses at either end. -/
def bounceMove (x : MsBank) : MsBank :=
  let pos := if x.x1 = 0 then x.x0 + 1 else x.x0 - 1
  { x with
    x0 := pos
    x1 := if pos.toNat ≤ 0 ∨ pos.toNat ≥ 47 then x.x1 ^^^ 1 else x.x1 }

/-! ### Modes 0 to 13 (45_modes_0_13.md) -/

/-- Mode 0, rainbow cycle (R240): the counter advances before drawing. -/
def rainbow (c : Canvas) : Canvas :=
  let x0 := addMod c.x.x0 1 256
  loop 48 (fun p c' => c'.plot2 p (hsv2rgb (hueDist (byteField x0.toNat) 48 (byteField p)) 255 255))
    (c.withX { c.x with x0 := x0 })

/-- Mode 1, solid colour (R241). -/
def solidColour (c : Canvas) : Canvas := c.fill Rgb.red

/-- Mode 2, toggled flash (R242). -/
def toggledFlash (c : Canvas) : Canvas :=
  let c1 := if c.x.x0 = 0 then c.fill Rgb.blue else c.fill Rgb.black
  c1.withX { c.x with x0 := c.x.x0 ^^^ 1 }

/-- Mode 3, spinning bar (R243). -/
def spinningBar (c : Canvas) : Canvas := rotate 2 2 1 0 false none 1 c

/-- Mode 4, side-wipe (R244): one position from each end a frame; the colour flag steps by
`color == Blue ? Red : Blue` when a wipe is complete. -/
def sideWipe (c : Canvas) : Canvas :=
  let col := if c.x.x1 = 0 then Rgb.blue else Rgb.red
  let c1 := (c.plot2 c.x.x0.toNat col).plot2 (47 - c.x.x0.toNat) col
  let x0 := c.x.x0 + 1
  c1.withX
    (if x0 = 24 then { c.x with x0 := 0, x1 := if c.x.x1 = 0 then 1 else 0 } else { c.x with x0 := x0 })

/-- Mode 5, laser sweep (R245). -/
def laserSweep (c : Canvas) : Canvas := rotate 1 0 2 60 false (some Rgb.red) 0 c

/-- Mode 6, radial gap (R246). -/
def radialGap (c : Canvas) : Canvas := rotate 1 3 1 0 true none 2 c

/-- Mode 7, sonic slice (R247). -/
def sonicSlice (c : Canvas) : Canvas := rotate 4 1 3 0 false none 4 c

/-- Mode 8, sinelon (R248). -/
def sinelon (cfg : Config.Params) (c : Canvas) : Canvas :=
  let s := sinWave cfg.sinLut (oscArg 0 0 c.x.x0)
  let c1 := (c.fadeAll 20).add2 (scale48 s) (hsvFull c.x.x1.toNat)
  c1.withX { c.x with x0 := addMod c.x.x0 3 256, x1 := addMod c.x.x1 1 256 }

/-- Mode 9, juggle (R249): four points with speeds 1 to 4 and phases a quarter turn apart. -/
def juggle (cfg : Config.Params) (c : Canvas) : Canvas :=
  let c1 := loop 4 (fun j c' =>
    let s := sinWave cfg.sinLut (oscArg (byteField c.x.x0.toNat) (byteField (j + 1)) (BitVec.ofNat 16 (64 * j)))
    c'.add2 (scale48 s) (hsv2rgb (byteField (32 * j)) 200 255)) (c.fadeAll 30)
  c1.withX { c.x with x0 := addMod c.x.x0 2 256 }

/-- Mode 10, comets (R250). -/
def comets (c : Canvas) : Canvas :=
  let c1 := (c.fadeAll 40).plot2 c.x.x0.toNat (hsvFull c.x.x1.toNat)
  let c2 := c1.plot2 ((c.x.x0.toNat + 24) % 48) (hsvFull ((c.x.x1.toNat + 128) % 256))
  c2.withX { c.x with x0 := addMod c.x.x0 1 48, x1 := addMod c.x.x1 1 256 }

/-- Mode 11, running light (R251). -/
def runningLight (c : Canvas) : Canvas :=
  let c1 := loop 8 (fun j c' => c'.plot2 ((c.x.x0.toNat + 6 * j) % 48) Rgb.white) (c.fadeAll 50)
  c1.withX { c.x with x0 := addMod c.x.x0 1 48 }

/-- Mode 12, bounce (R252). -/
def bounce (c : Canvas) : Canvas :=
  let c1 := (c.fadeAll 60).plot2 c.x.x0.toNat (hsvFull c.x.x2.toNat)
  c1.withX { bounceMove c.x with x2 := addMod c.x.x2 2 256 }

/-- Mode 13, dual bounce (R253). -/
def dualBounce (c : Canvas) : Canvas :=
  let c1 := ((c.fadeAll 40).plot2 c.x.x0.toNat Rgb.red).plot2 (47 - c.x.x0.toNat) Rgb.blue
  c1.withX (bounceMove c.x)

/-! ### Modes 14 to 26 (46_modes_14_26.md) -/

/-- Mode 14, ripple (R254). -/
def ripple (c : Canvas) : Canvas :=
  let col := hsv2rgb (byteField c.x.x1.toNat) 255 (byteField (255 - 10 * c.x.x0.toNat))
  let c1 := ((c.fadeAll 80).plot2 (c.x.x0.toNat % 48) col).plot2 ((48 - c.x.x0.toNat) % 48) col
  let x0 := c.x.x0 + 1
  c1.withX (if x0 = 25 then { c.x with x0 := 0, x1 := addMod c.x.x1 32 256 } else { c.x with x0 := x0 })

/-- Mode 15, sparkle (R255): one draw for the test, two more when it passes. -/
def sparkle (c : Canvas) : Canvas :=
  let (test, c1) := (c.fill Rgb.black).rand8
  if test.toNat < 128 then
    let (idx, c2) := c1.randN 96
    let (h, c3) := c2.rand8
    c3.setPix (idx.setWidth 7) (hsv2rgb h 255 255)
  else c1

/-- One ring of firefly (R256): one draw for the test, two more when it passes. -/
def fireflyRing (ring : Ring) (c : Canvas) : Canvas :=
  let (test, c1) := c.rand8
  if test.toNat < 80 then
    let (pos, c2) := c1.randN 48
    let (h, c3) := c2.rand8
    c3.setPix (mapPix ring (posField pos.toNat)) (hsv2rgb h 255 255)
  else c1

/-- Mode 16, firefly (R256): Ring A's draws all come before Ring B's. -/
def firefly (c : Canvas) : Canvas := fireflyRing .B (fireflyRing .A (c.fadeAll 10))

/-- The two origins of shockwave, drawn A first (R257). -/
def drawOrigins (c : Canvas) : Canvas :=
  let (a, c1) := c.randN 48
  let (b, c2) := c1.randN 48
  c2.withX { c2.x with x0 := a.setWidth 16, x1 := b.setWidth 16 }

/-- The two fronts of one ring at distance `rad` from the origin `o`, with the Euclidean remainder of
WRAP48 (R257). -/
def shockFronts (ring : Ring) (o rad : Nat) (col : Rgb) (c : Canvas) : Canvas :=
  (c.setPix (mapPix ring (posField ((o + rad) % 48))) col).setPix
    (mapPix ring (posField ((((o : Int) - rad) % 48).toNat))) col

/-- Mode 17, shockwave (R257): five radii, then new origins and the next hue. -/
def shockwave (c : Canvas) : Canvas :=
  let col := hsvFull c.x.x3.toNat
  let c1 := shockFronts .A c.x.x0.toNat c.x.x2.toNat col (c.fadeAll 60)
  let c2 := shockFronts .B c.x.x1.toNat c.x.x2.toNat col c1
  let x2 := c.x.x2 + 3
  if x2.toNat > 12 then
    drawOrigins (c2.withX { c.x with x2 := 0, x3 := addMod c.x.x3 32 256 })
  else c2.withX { c.x with x2 := x2 }

/-- One ring of the bar graph: a bar of height `h` up both sides (R258). -/
def barRing (ring : Ring) (h : Nat) (c : Canvas) : Canvas :=
  loop h (fun p c' =>
    let col := hsvFull ((((96 : Int) - 4 * p) % 256).toNat)
    (c'.setPix (mapPix ring (posField p)) col).setPix (mapPix ring (posField (47 - p))) col) c

/-- Mode 18, bar graph (R258): both heights are drawn first. -/
def barGraph (c : Canvas) : Canvas :=
  let (hA, c1) := (c.fill Rgb.black).randN 25
  let (hB, c2) := c1.randN 25
  barRing .B hB.toNat (barRing .A hA.toNat c2)

/-- Mode 19, psychedelic swirl (R259): physical indices, no ring mapping. -/
def swirl (cfg : Config.Params) (c : Canvas) : Canvas :=
  let c1 := loop 96 (fun i c' =>
    c'.setPix (BitVec.ofNat 7 i) (hsv2rgb (noiseWave cfg.hashLut (oscArg (byteField i) 40 c.x.x0)) 255 255)) c
  c1.withX { c.x with x0 := addMod c.x.x0 30 65536 }

/-- Mode 20, breathing (R260): the next of 16 hues after each breath. -/
def breathing (c : Canvas) : Canvas :=
  let v := triWave (oscArg 0 0 c.x.x0)
  let c1 := c.fill (hsv2rgb (byteField c.x.x1.toNat) 255 v)
  let x0 := addMod c.x.x0 2 256
  c1.withX { c.x with x0 := x0, x1 := if x0 = 0 then addMod c.x.x1 16 256 else c.x.x1 }

/-- Mode 21, sine wave (R261). -/
def sineWave (cfg : Config.Params) (c : Canvas) : Canvas :=
  let c1 := loop 48 (fun p c' =>
    c'.plot2 p (hsv2rgb 160 255 (sinWave cfg.sinLut (oscArg (byteField p) 16 c.x.x0)))) c
  c1.withX { c.x with x0 := addMod c.x.x0 8 65536 }

/-- Mode 22, flash white (R262). -/
def flashWhite (c : Canvas) : Canvas :=
  let c1 := if c.x.x0 = 0 then c.fill Rgb.white else c.fill Rgb.black
  c1.withX { c.x with x0 := addMod c.x.x0 1 4 }

/-- Mode 23, thunder pulse (R263). -/
def thunderPulse (c : Canvas) : Canvas :=
  let c1 := if c.x.x0.toNat < 5 then c.fill Rgb.white else c.fill Rgb.black
  c1.withX { c.x with x0 := addMod c.x.x0 1 60 }

/-- Mode 24, bass drop (R264). -/
def bassDrop (c : Canvas) : Canvas :=
  let c1 := c.fill (hsv2rgb (byteField c.x.x1.toNat) 255 (byteField (255 - 16 * c.x.x0.toNat)))
  let x0 := addMod c.x.x0 1 16
  c1.withX { c.x with x0 := x0, x1 := if x0 = 0 then addMod c.x.x1 8 256 else c.x.x1 }

/-- Mode 25, rave strobe (R265). -/
def raveStrobe (c : Canvas) : Canvas :=
  if c.x.x0 = 0 then
    (c.fill (hsvFull c.x.x1.toNat)).withX { c.x with x0 := c.x.x0 ^^^ 1, x1 := addMod c.x.x1 37 256 }
  else (c.fill Rgb.black).withX { c.x with x0 := c.x.x0 ^^^ 1 }

/-- Mode 26, full-throttle pulse (R266). -/
def throttlePulse (c : Canvas) : Canvas :=
  let v := triWave (oscArg (byteField c.x.x0.toNat) 32 0)
  (c.fill ⟨v, 0, 0⟩).withX { c.x with x0 := addMod c.x.x0 1 8 }

/-! ### The table -/

/-- The render of mode `m` of the default table (44_mode_sequencer.md R214, R222). -/
def standardRender (cfg : Config.Params) (m : Fin numMode) (c : Canvas) : Canvas :=
  match m.val with
  | 0 => rainbow c
  | 1 => solidColour c
  | 2 => toggledFlash c
  | 3 => spinningBar c
  | 4 => sideWipe c
  | 5 => laserSweep c
  | 6 => radialGap c
  | 7 => sonicSlice c
  | 8 => sinelon cfg c
  | 9 => juggle cfg c
  | 10 => comets c
  | 11 => runningLight c
  | 12 => bounce c
  | 13 => dualBounce c
  | 14 => ripple c
  | 15 => sparkle c
  | 16 => firefly c
  | 17 => shockwave c
  | 18 => barGraph c
  | 19 => swirl cfg c
  | 20 => breathing c
  | 21 => sineWave cfg c
  | 22 => flashWhite c
  | 23 => thunderPulse c
  | 24 => bassDrop c
  | 25 => raveStrobe c
  | _ => throttlePulse c

/-- The mode part of RESET of mode `m` of the default table: only mode 17 has one (44_mode_sequencer.md R213). -/
def standardReset (m : Fin numMode) (c : Canvas) : Canvas :=
  match m.val with
  | 17 => drawOrigins c
  | _ => c

/-- The mode part of RESET a table entry has (44_mode_sequencer.md R213). -/
def resetOf (cfg : Config.Params) (p : ModeProc) (c : Canvas) : Canvas :=
  match p with
  | .standard m => standardReset m c
  | .custom reset _ => performProc cfg reset c

/-- The render a table entry has (44_mode_sequencer.md R214). -/
def renderOf (cfg : Config.Params) (p : ModeProc) (c : Canvas) : Canvas :=
  match p with
  | .standard m => standardRender cfg m c
  | .custom _ render => performProc cfg render c

/-- The mode part of `RESET(m)`; an unknown mode has none (R213, R218). -/
def resetPartOf (cfg : Config.Params) (m : Nat) (c : Canvas) : Canvas :=
  match cfg.modeTable[m]? with
  | some d => resetOf cfg d.proc c
  | none => c

/-- `RESET(m)`: the frame buffer black and the four registers 0 for every mode, then the mode part
(44_mode_sequencer.md R213). -/
def resetMode (cfg : Config.Params) (m : Nat) (c : Canvas) : Canvas :=
  resetPartOf cfg m ((c.fill Rgb.black).withX ⟨0, 0, 0, 0⟩)

/-- `RENDER(m)`: the procedure of the mode's entry in MODE_TABLE; for an unknown mode the fallback, UNKMODE and a
black frame (44_mode_sequencer.md R214, R218). -/
def renderMode (cfg : Config.Params) (m : Nat) (c : Canvas) : Canvas :=
  match cfg.modeTable[m]? with
  | some d => renderOf cfg d.proc c
  | none => (c.raise .unkmode).fill Rgb.black

/-- The delay `RENDER(m)` returns (44_mode_sequencer.md R214, R215, R218). -/
def delayOf (cfg : Config.Params) (m : Nat) : Byte :=
  match cfg.modeTable[m]? with
  | some d => d.delay
  | none => cfg.fallbackDelay.val

end Sys2Proof.Machine
end

