-- ==== Sys2Proof/Machine/Sequencer.lean ====
section
/-! DEFINITION. The mode-state sequencer: FRAME and its phases (spec/44_mode_sequencer.md R210 to R219). -/

namespace Sys2Proof.Machine

/-- FRAME steps 1 and 2: MODE and BRIGHT are sampled together, SEQ goes to RENDER. The time the render will
take is `RENDER_LAT`, an input (R210; 70_reset_and_hazards.md R392; log entry 5). -/
def State.sampleConfig (s : State) : State :=
  { s with
    sMode := s.mode
    sBright := s.bright
    seq := .render
    renderLeft := s.renderLats.headD 0
    renderLats := s.renderLats.tail }

/-- FRAME steps 3 to 5: `RESET(S_MODE)` when the sampled mode differs from LASTMODE, which then takes it
(R210, R212; 60_exceptions.md R333). -/
def State.resetIfChanged (s : State) : State :=
  if s.sMode = s.lastMode then s
  else { s.withCanvas (resetMode s.cfg s.sMode.toNat s.canvas) with lastMode := s.sMode }

/-- FRAME step 6: `d <- RENDER(S_MODE)` (R210, R214). -/
def State.renderFrame (s : State) : State :=
  { s.withCanvas (renderMode s.cfg s.sMode.toNat s.canvas) with
    frameDelay := some (delayOf s.cfg s.sMode.toNat) }

/-- FRAME steps 3 to 9, done when no clock of RENDER is left: reset if the mode changed, render, PRESENT at
the sampled brightness; the hand-off ends the frame (R210). DESIGN CHOICE (log entry 5): the writes, events and
draws of the render all land here, so a render that `rst` cuts off in RENDER has taken no draw. -/
def State.completeRender (s : State) : State :=
  if s.renderLeft = 0 then
    (s.resetIfChanged.renderFrame.startPresent s.sBright).handOver
  else s

/-- Whether a frame is due (R211). -/
def State.frameDue (s : State) : Bool := decide (s.seq = .wait) && decide (s.delay = 0)

/-- One pass of the Render Loop (R210). -/
def State.runFrame (s : State) : State := s.sampleConfig.completeRender

/-- FRAME. The sequencer issues it only when SEQ is WAIT and DELAY is 0; a FRAME that is not due has no
effect (R210; log entry 8). From H or B it is dropped with PRIV: a frame cannot be forced from outside. -/
def execFrame (s : State) : Result := issued .frame s (if s.frameDue then s.runFrame else s)

end Sys2Proof.Machine
end

