-- ==== Sys2Proof/Machine/Clock.lean ====
section
/-! DEFINITION. The clock: the order of the actions of one clock, the reset action, and what a word that
does not decode does (spec/60_exceptions.md R332 to R337; spec/70_reset_and_hazards.md R370, R371;
spec/30_encoding.md R86, R87). -/

namespace Sys2Proof.Machine

/-- A clock in which no input is active; the output consumer goes on as before. -/
def quietClock : ClockIn where
  rst := false
  tick := false
  cmd := none
  modeInc := false
  modeDec := false
  briInc := false
  briDec := false
  outReady := none

/-- The word of a button, when its input is pulsed (30_encoding.md R92). -/
def buttonWords (pulsed : Bool) (b : Button) : List Action :=
  if pulsed then [Action.word .B b.word] else []

/-- The word on the command port, when there is one. -/
def hostWords : Option OpWord → List Action
  | some w => [Action.word .H w]
  | none => []

/-- The actions of a clock, in order: the word on the command port, the button pulses in their fixed order,
the sequencer's slot last (60_exceptions.md R336). While `rst` is high no word is accepted and no frame is
started (70_reset_and_hazards.md R370). -/
def ClockIn.actions (c : ClockIn) : List Action :=
  if c.rst then [Action.reset]
  else
    hostWords c.cmd ++ buttonWords c.modeInc .modeInc ++ buttonWords c.modeDec .modeDec ++
      buttonWords c.briInc .briInc ++ buttonWords c.briDec .briDec ++ [Action.sequencer c.tick]

/-- The next clock begins: its inputs are taken, its actions stand on the agenda, the result wires and
`rand_req` of the clock before fall (30_encoding.md R84, 70_reset_and_hazards.md R381; log entries 2, 3, 10). -/
def State.openClock (s : State) : State :=
  { s with
    agenda := (s.inputs.headD quietClock).actions
    inputs := s.inputs.tail
    consumer := (s.inputs.headD quietClock).outReady.getD s.consumer
    clockDraws := s.drawPos
    rsp := none
    sRes := none }

/-- `rst`: every piece of CORE's state takes its reset value, a frame in flight is cut off. The random
source, its position and the other inputs are not CORE's and go on (70_reset_and_hazards.md R370, R371; log
entry 18). DESIGN CHOICE (log entry 5): a render cut off in RENDER has taken no draw. -/
def State.hardReset (s : State) : State :=
  { s with
    mode := 0
    bright := s.cfg.initBright
    sMode := 0
    sBright := 0
    lastMode := 31
    x := ⟨0, 0, 0, 0⟩
    fb := []
    seq := .wait
    delay := 0
    diag := 0
    rsp := none
    sRes := none
    frameDelay := none
    outBright := 0
    handoff := []
    outLog := []
    renderLeft := 0
    issuer := .H
    clockDraws := s.drawPos }

/-- A word is accepted from an issuer: it is now the issuer, and the result it was last given falls, for a
port carries at most one word a clock (30_encoding.md R84, 70_reset_and_hazards.md R381; log entry 10). -/
def State.accept (iss : Issuer) (s : State) : State :=
  { s with
    issuer := iss
    rsp := match iss with | .H => none | .B => s.rsp | .S => s.rsp
    sRes := match iss with | .H => s.sRes | .B => s.sRes | .S => none }

/-- A word that does not decode is dropped: with ILLOP, but with PRIV when its opcode is assigned and the
issuer may not use it, for the issuer is checked before the fields (30_encoding.md R86, R87). -/
def State.dropWord (e : DecodeError) (s : State) : State :=
  match e with
  | .unassigned _ => s.raise .illop
  | .reservedField op => if mayIssue s.issuer op then s.raise .illop else s.raise .priv
  | .zeroDivisor op => if mayIssue s.issuer op then s.raise .illop else s.raise .priv

/-- A millisecond tick in WAIT: DELAY counts down to 0 (44_mode_sequencer.md R211, 60_exceptions.md R345). -/
def State.countDown (tick : Bool) (s : State) : State :=
  if tick then { s with delay := s.delay - 1 } else s

/-- A clock of RENDER passes; the frame goes on when none is left (70_reset_and_hazards.md R392). -/
def State.renderClock (s : State) : State :=
  State.completeRender { s with renderLeft := s.renderLeft - 1 }

/-- The issuer an operation word is presented by when it is put before the machine from outside a clock's
inputs: one that may use its opcode, the host where it may (log entry 1). -/
def issuerFor (w : OpWord) : Issuer :=
  match opOf (opcodeOf w) with
  | some op => if mayIssue .H op then .H else .S
  | none => .H

end Sys2Proof.Machine
end

