-- ==== Sys2Proof/Machine/Dispatch.lean ====
section
/-! DEFINITION. The meaning of every engine operation, one arm each (spec/30_encoding.md R85). -/

namespace Sys2Proof.Machine

/-- The effect of an instruction issued by the state's `issuer`. -/
def exec (i : Instr) (s : State) : Host.Outcome State Fault Refusal :=
  match i with
  | .nop => Sys2Proof.Machine.execNop s
  | .setmode imm16 => Sys2Proof.Machine.execSetmode imm16 s
  | .adjmode dir => Sys2Proof.Machine.execAdjmode dir s
  | .setbri imm16 => Sys2Proof.Machine.execSetbri imm16 s
  | .adjbri dir => Sys2Proof.Machine.execAdjbri dir s
  | .cfgupdM mode16 => Sys2Proof.Machine.execCfgupdM mode16 s
  | .cfgupdB imm16 => Sys2Proof.Machine.execCfgupdB imm16 s
  | .cfgupdMB mode16 bri16 => Sys2Proof.Machine.execCfgupdMB mode16 bri16 s
  | .frame => Sys2Proof.Machine.execFrame s
  | .mappix ring pos => Sys2Proof.Machine.execMappix ring pos s
  | .unmap idx => Sys2Proof.Machine.execUnmap idx s
  | .wrap48 imm16 => Sys2Proof.Machine.execWrap48 imm16 s
  | .cdist a b => Sys2Proof.Machine.execCdist a b s
  | .cfwd a b => Sys2Proof.Machine.execCfwd a b s
  | .gamma8 v => Sys2Proof.Machine.execGamma8 v s
  | .hsv2rgb a b c => Sys2Proof.Machine.execHsv2rgb a b c s
  | .huedist a b c => Sys2Proof.Machine.execHuedist a b c s
  | .scale8 v b => Sys2Proof.Machine.execScale8 v b s
  | .scale48 v => Sys2Proof.Machine.execScale48 v s
  | .oscTri idx scale phase => Sys2Proof.Machine.execOscTri idx scale phase s
  | .oscSin idx scale phase => Sys2Proof.Machine.execOscSin idx scale phase s
  | .oscNoise idx scale phase => Sys2Proof.Machine.execOscNoise idx scale phase s
  | .rand8 => Sys2Proof.Machine.execRand8 s
  | .randn v => Sys2Proof.Machine.execRandn v s
  | .fill rgb => Sys2Proof.Machine.execFill rgb s
  | .fillring ring rgb => Sys2Proof.Machine.execFillring ring rgb s
  | .setpix idx rgb => Sys2Proof.Machine.execSetpix idx rgb s
  | .getpix idx => Sys2Proof.Machine.execGetpix idx s
  | .fadeall v => Sys2Proof.Machine.execFadeall v s
  | .fadepix idx k => Sys2Proof.Machine.execFadepix idx k s
  | .addpix idx rgb => Sys2Proof.Machine.execAddpix idx rgb s
  | .present v => Sys2Proof.Machine.execPresent v s

end Sys2Proof.Machine
end

