-- ==== Sys2Proof/Machine/Agents.lean ====
section
/-! DEFINITION. What one agent does in one action: an issuer presents a word, the sequencer takes its slot,
`rst` is sampled high (spec/60_exceptions.md R332, R340; spec/44_mode_sequencer.md R211). -/

namespace Sys2Proof.Machine

/-- An operation word from an issuer: the instruction it decodes to runs; an illegal word is dropped
(30_encoding.md R86, R87). -/
def State.runWord (iss : Issuer) (w : OpWord) (s : State) : Host.Outcome State Fault Refusal :=
  match decode w with
  | .ok i => exec i (s.accept iss)
  | .error e => .next (State.dropWord e (s.accept iss))

/-- The sequencer's slot of a clock (44_mode_sequencer.md R211): in WAIT it counts the delay or issues
FRAME, in RENDER a clock of the render passes, in PRESENT the hand-off goes on. -/
def State.runSequencer (tick : Bool) (s : State) : Host.Outcome State Fault Refusal :=
  match s.seq with
  | .wait => if s.delay = 0 then exec .frame (s.accept .S) else .next (s.countDown tick)
  | .render => .next s.renderClock
  | .present => .next s.handOver

/-- One action of one agent. -/
def State.perform (a : Action) (s : State) : Host.Outcome State Fault Refusal :=
  match a with
  | .reset => .next s.hardReset
  | .word iss w => s.runWord iss w
  | .sequencer tick => s.runSequencer tick

end Sys2Proof.Machine
end

