-- ==== Sys2Proof/Machine/Step.lean ====
section
/-! DEFINITION. One step: the next action of the current clock, or the beginning of the next clock
(spec/60_exceptions.md R332, R336; spec/44_mode_sequencer.md R211). -/

namespace Sys2Proof.Machine

/-- One step of the machine. -/
def step (s : State) : Host.Outcome State Fault Refusal :=
  match s.agenda with
  | [] => .next s.openClock
  | a :: rest => State.perform a { s with agenda := rest }

/-- `s` with an operation word, numbered as the opcode table numbers it, put where `step` takes its next
word: at the head of the agenda, from an issuer that may use its opcode (log entry 1). -/
def State.withFetchWord (s : State) (nbits w : Nat) : State :=
  let word : OpWord := BitVec.ofNat 40 (w % 2 ^ nbits)
  { s with agenda := .word (issuerFor word) word :: s.agenda }

end Sys2Proof.Machine
end

