-- ==== Sys2Proof/Assembler.lean ====
section
/-! DEFINITION. The assembler syntax of an instruction, written and read, and the pseudo-operations with their
expansions (spec/30_encoding.md R90, R91). -/

namespace Sys2Proof.Assembler

/-- A signed operand in decimal (R90). -/
def signed (v : BitVec 16) : String := toString v.toInt

/-- An unsigned operand in decimal (R90). -/
def unsigned {n : Nat} (v : BitVec n) : String := toString v.toNat

/-- `ring` is written `A` or `B` (R90). -/
def ringName : Ring → String
  | .A => "A"
  | .B => "B"

/-- `rgb` is written `(r,g,b)` (R90). -/
def colour (c : Rgb) : String := "(" ++ unsigned c.r ++ "," ++ unsigned c.g ++ "," ++ unsigned c.b ++ ")"

/-- `dir` is written with the step it selects (R90). -/
def direction (step : String) : Dir → String
  | .plus => "+" ++ step
  | .minus => "-" ++ step

/-- The mnemonic, then the operands separated by commas, most significant field first (R90). -/
def asm : Instr → String
  | .nop => "NOP"
  | .setmode i => "SETMODE " ++ signed i
  | .adjmode d => "ADJMODE " ++ direction "1" d
  | .setbri i => "SETBRI " ++ signed i
  | .adjbri d => "ADJBRI " ++ direction "10" d
  | .cfgupdM m => "CFGUPD.M " ++ signed m
  | .cfgupdB b => "CFGUPD.B " ++ signed b
  | .cfgupdMB m b => "CFGUPD.MB " ++ signed m ++ ", " ++ signed b
  | .frame => "FRAME"
  | .mappix r p => "MAPPIX " ++ ringName r ++ ", " ++ unsigned p
  | .unmap i => "UNMAP " ++ unsigned i
  | .wrap48 i => "WRAP48 " ++ signed i
  | .cdist a b => "CDIST " ++ unsigned a ++ ", " ++ unsigned b
  | .cfwd a b => "CFWD " ++ unsigned a ++ ", " ++ unsigned b
  | .gamma8 v => "GAMMA8 " ++ unsigned v
  | .hsv2rgb h s v => "HSV2RGB " ++ unsigned h ++ ", " ++ unsigned s ++ ", " ++ unsigned v
  | .huedist s n i => "HUEDIST " ++ unsigned s ++ ", " ++ unsigned n ++ ", " ++ unsigned i
  | .scale8 v b => "SCALE8 " ++ unsigned v ++ ", " ++ unsigned b
  | .scale48 v => "SCALE48 " ++ unsigned v
  | .oscTri i s p => "OSC.TRI " ++ unsigned i ++ ", " ++ unsigned s ++ ", " ++ unsigned p
  | .oscSin i s p => "OSC.SIN " ++ unsigned i ++ ", " ++ unsigned s ++ ", " ++ unsigned p
  | .oscNoise i s p => "OSC.NOISE " ++ unsigned i ++ ", " ++ unsigned s ++ ", " ++ unsigned p
  | .rand8 => "RAND8"
  | .randn n => "RANDN " ++ unsigned n
  | .fill c => "FILL " ++ colour c
  | .fillring r c => "FILLRING " ++ ringName r ++ ", " ++ colour c
  | .setpix i c => "SETPIX " ++ unsigned i ++ ", " ++ colour c
  | .getpix i => "GETPIX " ++ unsigned i
  | .fadeall k => "FADEALL " ++ unsigned k
  | .fadepix i k => "FADEPIX " ++ unsigned i ++ ", " ++ unsigned k
  | .addpix i c => "ADDPIX " ++ unsigned i ++ ", " ++ colour c
  | .present b => "PRESENT " ++ unsigned b

/-- The pseudo-operations (R91). -/
inductive Pseudo
  | incmode | decmode | briup | bridown
  | tri8 (x : Byte)
  | sin8 (x : Byte)
  | noise8 (x : BitVec 16)
  | plot2 (p : BitVec 6) (rgb : Rgb)
  | add2 (p : BitVec 6) (rgb : Rgb)
  | clear
deriving DecidableEq, Repr

/-- The expansion of a pseudo-operation; the index operands of PLOT2 and ADD2 are the results of the two
MAPPIX operations (R91). -/
def Pseudo.expand : Pseudo → List Instr
  | .incmode => [.adjmode .plus]
  | .decmode => [.adjmode .minus]
  | .briup => [.adjbri .plus]
  | .bridown => [.adjbri .minus]
  | .tri8 x => [.oscTri 0 0 (x.setWidth 16)]
  | .sin8 x => [.oscSin 0 0 (x.setWidth 16)]
  | .noise8 x => [.oscNoise 0 0 x]
  | .plot2 p c =>
    [.mappix .A p, .setpix (Machine.mapPix .A p) c, .mappix .B p, .setpix (Machine.mapPix .B p) c]
  | .add2 p c =>
    [.mappix .A p, .addpix (Machine.mapPix .A p) c, .mappix .B p, .addpix (Machine.mapPix .B p) c]
  | .clear => [.fill Rgb.black]

/-! ### Reading a line (R90) -/

/-- A reader takes a prefix of the characters of a line, its blanks taken out, or refuses. -/
abbrev Reader (α : Type) := List Char → Option (α × List Char)

/-- The value of a digit in a base. -/
def digit (base : Nat) (c : Char) : Option Nat :=
  let n :=
    if '0' ≤ c ∧ c ≤ '9' then c.toNat - 48
    else if 'a' ≤ c ∧ c ≤ 'f' then c.toNat - 87
    else if 'A' ≤ c ∧ c ≤ 'F' then c.toNat - 55
    else base
  if n < base then some n else none

/-- The digits in front, added to a number. -/
def digits (base acc : Nat) : List Char → Nat × List Char
  | [] => (acc, [])
  | c :: t =>
    match digit base c with
    | some d => digits base (acc * base + d) t
    | none => (acc, c :: t)

/-- A number, decimal or `0x` hexadecimal, of one digit or more. -/
def number : Reader Nat
  | '0' :: 'x' :: t => if (t.head?.bind (digit 16)).isSome then some (digits 16 0 t) else none
  | cs => if (cs.head?.bind (digit 10)).isSome then some (digits 10 0 cs) else none

/-- An unsigned field of `n` bits. -/
def field (n : Nat) : Reader (BitVec n) := fun cs =>
  (number cs).bind fun (v, t) => if v < 2 ^ n then some (BitVec.ofNat n v, t) else none

/-- A signed field of 16 bits, which may carry `+` or `-`. -/
def signedField : Reader (BitVec 16)
  | '-' :: t => (number t).bind fun (v, r) => if v ≤ 32768 then some (BitVec.ofInt 16 (-v), r) else none
  | '+' :: t => (number t).bind fun (v, r) => if v < 32768 then some (BitVec.ofNat 16 v, r) else none
  | cs => (number cs).bind fun (v, r) => if v < 32768 then some (BitVec.ofNat 16 v, r) else none

/-- `A` or `B`. -/
def ringField : Reader Ring
  | 'A' :: t => some (.A, t)
  | 'B' :: t => some (.B, t)
  | _ => none

/-- The sign in front of the one step the operation has. -/
def directionField (step : Nat) : Reader Dir
  | '+' :: t => (number t).bind fun (v, r) => if v = step then some (.plus, r) else none
  | '-' :: t => (number t).bind fun (v, r) => if v = step then some (.minus, r) else none
  | _ => none

/-- One character. -/
def expect (c : Char) : Reader Unit
  | [] => none
  | d :: t => if d = c then some ((), t) else none

/-- Two operands with a comma between. -/
def pair {α β : Type} (p : Reader α) (q : Reader β) : Reader (α × β) := fun cs =>
  (p cs).bind fun (a, r) => (expect ',' r).bind fun (_, r') => (q r').bind fun (b, r'') => some ((a, b), r'')

/-- `(r,g,b)`, or a 24-bit hexadecimal number. -/
def rgbField : Reader Rgb
  | '(' :: t =>
    (pair (field 8) (pair (field 8) (field 8)) t).bind fun ((r, g, b), rest) =>
      (expect ')' rest).bind fun (_, rest') => some (⟨r, g, b⟩, rest')
  | '0' :: 'x' :: t => (field 24 ('0' :: 'x' :: t)).map fun (w, r) => (Rgb.ofWord w, r)
  | _ => none

/-- An operation whose operands take the whole rest of the line. -/
def whole {α : Type} (p : Reader α) (f : α → Instr) (cs : List Char) : Option (List Instr) :=
  match p cs with
  | some (a, []) => some [f a]
  | _ => none

/-- A pseudo-operation whose operands take the whole rest of the line. -/
def wholePseudo {α : Type} (p : Reader α) (f : α → Pseudo) (cs : List Char) : Option (List Instr) :=
  match p cs with
  | some (a, []) => some (f a).expand
  | _ => none

/-- No operands. -/
def nothing : Reader Unit := fun cs => some ((), cs)

/-- The operands of a mnemonic, in the order its format lists them from the most significant (R90). -/
def operands (mnemonic : String) (cs : List Char) : Option (List Instr) :=
  match mnemonic with
  | "NOP" => whole nothing (fun _ => .nop) cs
  | "SETMODE" => whole signedField .setmode cs
  | "ADJMODE" => whole (directionField 1) .adjmode cs
  | "SETBRI" => whole signedField .setbri cs
  | "ADJBRI" => whole (directionField 10) .adjbri cs
  | "CFGUPD.M" => whole signedField .cfgupdM cs
  | "CFGUPD.B" => whole signedField .cfgupdB cs
  | "CFGUPD.MB" => whole (pair signedField signedField) (fun (m, b) => .cfgupdMB m b) cs
  | "FRAME" => whole nothing (fun _ => .frame) cs
  | "MAPPIX" => whole (pair ringField (field 6)) (fun (r, p) => .mappix r p) cs
  | "UNMAP" => whole (field 7) .unmap cs
  | "WRAP48" => whole signedField .wrap48 cs
  | "CDIST" => whole (pair (field 6) (field 6)) (fun (a, b) => .cdist a b) cs
  | "CFWD" => whole (pair (field 6) (field 6)) (fun (a, b) => .cfwd a b) cs
  | "GAMMA8" => whole (field 8) .gamma8 cs
  | "HSV2RGB" => whole (pair (field 8) (pair (field 8) (field 8))) (fun (a, b, c) => .hsv2rgb a b c) cs
  | "HUEDIST" => whole (pair (field 8) (pair (field 8) (field 8))) (fun (a, b, c) => .huedist a b c) cs
  | "SCALE8" => whole (pair (field 8) (field 8)) (fun (v, b) => .scale8 v b) cs
  | "SCALE48" => whole (field 8) .scale48 cs
  | "OSC.TRI" => whole (pair (field 8) (pair (field 8) (field 16))) (fun (i, s, p) => .oscTri i s p) cs
  | "OSC.SIN" => whole (pair (field 8) (pair (field 8) (field 16))) (fun (i, s, p) => .oscSin i s p) cs
  | "OSC.NOISE" => whole (pair (field 8) (pair (field 8) (field 16))) (fun (i, s, p) => .oscNoise i s p) cs
  | "RAND8" => whole nothing (fun _ => .rand8) cs
  | "RANDN" => whole (field 8) .randn cs
  | "FILL" => whole rgbField .fill cs
  | "FILLRING" => whole (pair ringField rgbField) (fun (r, c) => .fillring r c) cs
  | "SETPIX" => whole (pair (field 7) rgbField) (fun (i, c) => .setpix i c) cs
  | "GETPIX" => whole (field 7) .getpix cs
  | "FADEALL" => whole (field 8) .fadeall cs
  | "FADEPIX" => whole (pair (field 7) (field 8)) (fun (i, k) => .fadepix i k) cs
  | "ADDPIX" => whole (pair (field 7) rgbField) (fun (i, c) => .addpix i c) cs
  | "PRESENT" => whole (field 8) .present cs
  | "INCMODE" => wholePseudo nothing (fun _ => .incmode) cs
  | "DECMODE" => wholePseudo nothing (fun _ => .decmode) cs
  | "BRIUP" => wholePseudo nothing (fun _ => .briup) cs
  | "BRIDOWN" => wholePseudo nothing (fun _ => .bridown) cs
  | "TRI8" => wholePseudo (field 8) .tri8 cs
  | "SIN8" => wholePseudo (field 8) .sin8 cs
  | "NOISE8" => wholePseudo (field 16) .noise8 cs
  | "PLOT2" => wholePseudo (pair (field 6) rgbField) (fun (p, c) => .plot2 p c) cs
  | "ADD2" => wholePseudo (pair (field 6) rgbField) (fun (p, c) => .add2 p c) cs
  | "CLEAR" => wholePseudo nothing (fun _ => .clear) cs
  | _ => none

/-- A line: one operation or pseudo-operation, or nothing; a `;` starts a comment (R90). -/
def readLine (line : String) : Option (List Instr) :=
  let cs := (line.toList.takeWhile (· != ';')).dropWhile (· == ' ')
  match cs with
  | [] => some []
  | _ => operands (String.ofList (cs.takeWhile (· != ' '))) ((cs.dropWhile (· != ' ')).filter (· != ' '))

end Sys2Proof.Assembler
end

