-- ==== Sys2Proof/Machine/Ports.lean ====
section
/-! DEFINITION. The output wires of CORE as functions of the state (spec/10_state.md R46). -/

namespace Sys2Proof.Machine

/-- The output wires of 10_state.md R46. -/
structure PortsOut where
  cmdReady : Bool
  rspValid : Bool
  rspWord : RspWord
  /-- `rand_req`, by the number of its pulses in the clock: one for each draw, in the order of the draws. -/
  randReq : Nat
  outValid : Bool
  outIdx : BitVec 7
  outPix : BitVec 24
  outLast : Bool
  cfgModeO : BitVec 5
  cfgBrightO : Byte
  diagO : BitVec 5
deriving DecidableEq, Repr

/-- The wires a state shows. `cmd_ready` is high in every clock in which `rst` is low
(70_reset_and_hazards.md R381); `out_valid` is high throughout PRESENT (R384) and low while `rst` is high
(R370). `rand_req` is high once for each draw; all the draws of a render stand in one clock (log entry 26).
DESIGN CHOICE (log entry 25): the spec says nothing of `rsp_word` while `rsp_valid` is low, nor of `out_idx` and
`out_pix` while `out_valid` is low, nor of `out_last` then but that a cut-off frame shows none (R370). Here
`rsp_word` shows 0 and `out_last` is low; `out_idx` and `out_pix` show the index 0 and pixel 0 scaled by the
brightness of the last PRESENT, and while `rst` is high over a hand-off still in flight the index it stands at and
that index's scaled pixel. -/
def State.wires (rst : Bool) (s : State) : PortsOut where
  cmdReady := !rst
  rspValid := s.rsp.isSome
  rspWord := s.rsp.getD 0
  randReq := if rst then 0 else s.drawPos - s.clockDraws
  outValid := decide (s.seq = .present) && !rst
  outIdx := BitVec.ofNat 7 s.handoff.length
  outPix := (s.outPixel s.handoff.length).toWord
  outLast := decide (s.seq = .present) && !rst && decide (s.handoff.length = 95)
  cfgModeO := s.mode
  cfgBrightO := s.bright
  diagO := s.diag

end Sys2Proof.Machine
end

