-- ==== Sys2Proof/Safety.lean ====
section
/-! DEFINITION. What counts as a legal state, and the further terms the statements use: the register ranges
of each mode, a run of frames, the hue distribution as the spec's iteration (spec/10_state.md R26, R31, R34,
R35, R41; spec/41_color_utilities.md R135; spec/70_reset_and_hazards.md R384, R388). -/

namespace Sys2Proof.Machine

/-- The largest value of each MS register while a mode is active, the table of 10_state.md R31; a register
the mode does not use, and the bank before the first frame, hold 0 (R30, R48, 44_mode_sequencer.md R213). -/
def msBounds : Nat → Nat × Nat × Nat × Nat
  | 0 => (255, 0, 0, 0)
  | 2 => (1, 0, 0, 0)
  | 3 => (47, 255, 0, 0)
  | 4 => (23, 1, 0, 0)
  | 5 => (47, 0, 0, 0)
  | 6 => (47, 255, 0, 0)
  | 7 => (47, 255, 0, 0)
  | 8 => (255, 255, 0, 0)
  | 9 => (255, 0, 0, 0)
  | 10 => (47, 255, 0, 0)
  | 11 => (47, 0, 0, 0)
  | 12 => (47, 1, 255, 0)
  | 13 => (47, 1, 0, 0)
  | 14 => (24, 255, 0, 0)
  | 17 => (47, 47, 12, 255)
  | 19 => (65535, 0, 0, 0)
  | 20 => (255, 255, 0, 0)
  | 21 => (65535, 0, 0, 0)
  | 22 => (3, 0, 0, 0)
  | 23 => (59, 0, 0, 0)
  | 24 => (15, 255, 0, 0)
  | 25 => (1, 255, 0, 0)
  | 26 => (7, 0, 0, 0)
  | _ => (0, 0, 0, 0)

/-- A bouncing point never moves off its ring: it goes forward below 47 and backward above 0
(44_mode_sequencer.md R225). -/
def bounceLegal (x : MsBank) : Bool :=
  if x.x1 = 0 then decide (x.x0.toNat < 47) else decide (0 < x.x0.toNat)

/-- The MS bank holds values the mode can have (10_state.md R31); the two bounce modes move within their
ring (44_mode_sequencer.md R225). -/
def MsBank.inRange (m : Nat) (x : MsBank) : Bool :=
  decide (x.x0.toNat ≤ (msBounds m).1) && decide (x.x1.toNat ≤ (msBounds m).2.1) &&
  decide (x.x2.toNat ≤ (msBounds m).2.2.1) && decide (x.x3.toNat ≤ (msBounds m).2.2.2) &&
  (!(m == 12 || m == 13) || bounceLegal x)

/-- An operation word on the agenda that names the sequencer as its issuer. No port carries one
(60_exceptions.md R340). -/
def Action.isSequencerWord : Action → Bool
  | .word .S _ => true
  | .word .H _ => false
  | .word .B _ => false
  | .reset => false
  | .sequencer _ => false

/-- A legal state: what every reachable state is. -/
structure State.Inv (s : State) : Prop where
  /-- `0 <= MODE <= 26` (10_state.md R26). -/
  mode_legal : s.mode.toNat < numMode
  /-- The sampled mode is a legal one (R28). -/
  sMode_legal : s.sMode.toNat < numMode
  /-- LASTMODE is a mode or none (R29). -/
  lastMode_legal : s.lastMode.toNat < numMode ∨ s.lastMode = 31
  /-- With the default table the MS bank is in the ranges of the mode that owns it (R31). -/
  ms_legal : s.cfg.modeTable = modeTable → s.x.inRange s.lastMode.toNat = true
  /-- The mode table returns delays in the document's range (44_mode_sequencer.md R215, R223 (3)). -/
  table_delays : ∀ d ∈ s.cfg.modeTable.toList, 10 ≤ d.delay.toNat ∧ d.delay.toNat ≤ 100
  /-- The frame buffer keeps its canonical form. -/
  fb_canonical : s.fb.wf = true
  /-- DELAY is at most the longest delay (R35). -/
  delay_le : s.delay.toNat ≤ 100
  /-- No port word names the sequencer (60_exceptions.md R340). -/
  ports_only : ∀ a ∈ s.agenda, a.isSequencerWord = false
  /-- Nothing is in flight outside PRESENT (R34). -/
  idle : s.seq ≠ .present → s.handoff = [] ∧ s.frameDelay = none
  /-- In PRESENT the pixels sent are the scaled frame buffer from index 0 on, fewer than 96, at the
  brightness sampled with the frame (70_reset_and_hazards.md R380, R384). -/
  in_flight : s.seq = .present →
    s.handoff.length < numPix ∧ s.handoff = (List.range s.handoff.length).map s.outPixel ∧
    s.outBright = s.sBright ∧ s.frameDelay.isSome = true
  /-- The delay a render returned is in the document's range (44_mode_sequencer.md R215). -/
  frameDelay_legal : ∀ d, s.frameDelay = some d → 10 ≤ d.toNat ∧ d.toNat ≤ 100
  /-- Every frame handed out has 96 pixels and a delay in range (10_state.md R41, 70_reset_and_hazards.md
  R388). -/
  log_whole : ∀ f ∈ s.outLog, f.pixels.length = numPix ∧ 10 ≤ f.delay.toNat ∧ f.delay.toNat ≤ 100

/-- The frame the output consumer gets from a frame buffer at a brightness: the 96 pixels in index order,
each scaled (43_frame_buffer.md R188). -/
def presented (fb : Memory) (b : Byte) : List Rgb :=
  (List.range numPix).map fun i => scaleRgb b (fb.read i)

/-- The next state an outcome answers; the state before where it answers none (it always answers one,
70_reset_and_hazards.md R388). -/
def State.orElse (s : State) : Host.Outcome State Fault Refusal → State
  | .next t => t
  | .fault _ => s
  | .refused _ => s

/-- The state after the sequencer's slot of a clock with a tick (44_mode_sequencer.md R211). -/
def State.tickSlot (s : State) : State := s.orElse (s.runSequencer true)

/-- One more frame: the delay has run out and the sequencer issues FRAME (44_mode_sequencer.md R211). -/
def State.nextFrame (s : State) : State := s.orElse (exec .frame { s with delay := 0, issuer := .S })

/-- `n` frames one after another, the delay of each having run out before the next. -/
def State.frames : Nat → State → State
  | 0, s => s
  | n + 1, s => State.nextFrame (State.frames n s)

/-- One pixel of the hue distribution's iteration, the error kept as a numerator over `n`
(41_color_utilities.md R135). -/
def hueStep (n : Nat) (hueErr : Nat × Nat) : Nat × Nat :=
  let hue := hueErr.1 + 256 / n
  let err := hueErr.2 + 256 % n
  if err ≥ n then (hue + 1, err - n) else (hue, err)

/-- The hue after `i` pixels of the iteration, before the last reduction (41_color_utilities.md R135). -/
def hueIteration (start n : Nat) : Nat → Nat × Nat
  | 0 => (start, 0)
  | i + 1 => hueStep n (hueIteration start n i)

/-- The word `r` is the answer of a pure operation, and the whole of its effect: the response word when the
host issued it, the sequencer's own result when the sequencer did (30_encoding.md R84). That the sequencer is
given UNMAP's three parts in the host's layout is log entry 27. -/
def State.answers (s : State) (i : Instr) (r : RspWord) : Prop :=
  (s.issuer = .H → exec i s = .next { s with rsp := some r }) ∧
  (s.issuer = .S → exec i s = .next { s with sRes := some r })

/-- The draw the random source answers next, `k` draws ahead (42_oscillators.md R160). -/
def State.drawAhead (s : State) (k : Nat) : BitVec 16 :=
  (s.draws.drop k).headD (Config.randStream (s.drawPos + k))

/-- Nothing the world outside does holds a frame up: the sequencer waits, the consumer is ready and renders
take no time (44_mode_sequencer.md R211). -/
structure State.Unhindered (s : State) : Prop where
  phase_wait : s.seq = .wait
  consumer_ready : s.consumer = .ready
  no_latencies : s.renderLats = []

/-- A state in which the sequencer may issue FRAME and the render takes no time (44_mode_sequencer.md R210,
R211). -/
structure State.FrameDue (s : State) : Prop where
  issuer_seq : s.issuer = .S
  phase_wait : s.seq = .wait
  delay_zero : s.delay = 0
  no_latency : s.renderLats.headD 0 = 0

/-- With the output consumer ready, FRAME runs to its end in one step (44_mode_sequencer.md R210). -/
structure State.FrameReady (s : State) : Prop extends s.FrameDue where
  consumer_ready : s.consumer = .ready

/-- The MS bank a render finds: the registers as they are, or 0 when the mode has just changed, but for what the
mode part of RESET writes (44_mode_sequencer.md R212, R213). -/
def State.startBank (s : State) : MsBank := if s.mode = s.lastMode then s.x else ⟨0, 0, 0, 0⟩

/-- The pixel a render finds: as it is, or black when the mode has just changed (44_mode_sequencer.md R212,
R213). -/
def State.startPixel (s : State) (a : Nat) : Rgb := if s.mode = s.lastMode then s.fb.read a else Rgb.black

/-- `t` shows, at logical position `p` of both rings, the pixel `s` rendered from after a fade by `k`, painted by
`paint p` (44_mode_sequencer.md R221, R226). -/
def State.trailsTo (s t : State) (k : Byte) (paint : Nat → Rgb → Rgb) : Prop :=
  ∀ p : Nat, p ≤ 47 →
    t.fb.read p = paint p (fadeRgb k (s.startPixel p)) ∧
    t.fb.read (95 - p) = paint p (fadeRgb k (s.startPixel (95 - p)))

/-- The sine of a phase as a logical position, the point of the oscillator trails (41_color_utilities.md R138;
42_oscillators.md R154). -/
def State.sinePoint (s : State) (phase : Nat) : Nat := (s.cfg.sinLut[Fin.ofNat 256 phase]).toNat * 48 / 256

/-- The position of the bounce modes after `n` moves from 0: forward to 47 and back, period 94
(44_mode_sequencer.md R225). -/
def bouncePos (n : Nat) : Nat := if n % 94 ≤ 47 then n % 94 else 94 - n % 94

end Sys2Proof.Machine
end

