-- ==== Sys2Proof/Certificates/Slice0/Obligations.lean ====
section
/-! DEFINITION. The statements for the provers. Each docstring says which rules of spec/ it formalises; where a
clause is the model's own choice it names the log entry. -/

open Sys2Proof Sys2Proof.Machine

/-! ### The operation word -/

/-- A few example words of the opcode table decode to the operations they stand for (30_encoding.md R82,
R85). -/
def Obligations.DecodeReadsTableExamples : Prop :=
  decode 0x0000000000 = .ok .nop ∧
  decode 0x0200000001 = .ok (.adjmode .minus) ∧
  decode 0x07000300C8 = .ok (.cfgupdMB 3 200) ∧
  decode 0x0800000000 = .ok .frame ∧
  decode 0x1000000105 = .ok (.mappix .B 5) ∧
  decode 0x130000022E = .ok (.cdist 2 46) ∧
  decode 0x2200003003 = .ok (.huedist 0 48 3) ∧
  decode 0x320528001E = .ok (.oscNoise 5 40 30) ∧
  decode 0x41010000FF = .ok (.fillring .B ⟨0, 0, 255⟩) ∧
  decode 0x4507000014 = .ok (.fadepix 7 20)

/-- Decoding the word of a well-formed operation gives the operation back: no bit of an encoding is dropped
(30_encoding.md R80, R82, R83, R85). -/
def Obligations.DecodeInvertsEncode : Prop :=
  ∀ i : Instr, i.wellFormed = true → decode (encode i) = .ok i

/-- Every word the decoder accepts is the encoding of the one well-formed operation it gives: there are no
second encodings and no ignored bits (30_encoding.md R86: every word is one of the 32 operations with legal
fields, or it is dropped). -/
def Obligations.EncodeInvertsDecode : Prop :=
  ∀ (w : OpWord) (i : Instr), decode w = .ok i → encode i = w ∧ i.wellFormed = true

/-- An illegal word sets ILLOP and changes nothing else: a word whose opcode none of the 32 operations has,
from any issuer, and a word with an assigned opcode the issuer may use that is no legal operation's encoding
(30_encoding.md R86, R87). -/
def Obligations.IllegalWordsDropped : Prop :=
  ∀ (s : State) (iss : Issuer) (w : OpWord),
    ((∀ op : Op, op.code ≠ opcodeOf w) →
      s.runWord iss w = .next { s.accept iss with diag := s.diag ||| 0b00010#5 }) ∧
    (∀ op : Op, op.code = opcodeOf w → mayIssue iss op = true →
      (∀ i : Instr, i.wellFormed = true → encode i ≠ w) →
      s.runWord iss w = .next { s.accept iss with diag := s.diag ||| 0b00010#5 })

/-- A word whose opcode its issuer may not use sets PRIV and changes nothing else, whatever its payload
holds; which opcodes each issuer may use is fixed (30_encoding.md R85, R87; 60_exceptions.md R340, R341). That a
NOP or a configuration word from the sequencer is dropped with PRIV too is the model's reading of R87, log entry
11. -/
def Obligations.ForbiddenIssuerDropped : Prop :=
  (∀ (s : State) (iss : Issuer) (w : OpWord) (op : Op), op.code = opcodeOf w → mayIssue iss op = false →
    s.runWord iss w = .next { s.accept iss with diag := s.diag ||| 0b00100#5 }) ∧
  (∀ op : Op, mayIssue .H op = false ↔
    op ∈ [Op.frame, .rand8, .randn, .fill, .fillring, .setpix, .getpix, .fadeall, .fadepix, .addpix,
      .present]) ∧
  (∀ op : Op, mayIssue .B op = true ↔ op = .adjmode ∨ op = .adjbri) ∧
  (∀ op : Op, mayIssue .S op = false ↔
    op ∈ [Op.nop, .setmode, .adjmode, .setbri, .adjbri, .cfgupdM, .cfgupdB, .cfgupdMB])

/-! ### Steps, clocks and reset -/

/-- When the next action is a word that decodes to an operation, the step is `exec` of that operation, in the
state with the action taken off the agenda and the word accepted: its issuer is the state's issuer, and the
result that issuer was last given has fallen (log entries 2 and 10). -/
def Obligations.StepRunsDecodedWord : Prop :=
  ∀ (s : State) (iss : Issuer) (w : OpWord) (rest : List Action) (i : Instr),
    s.agenda = .word iss w :: rest → decode w = .ok i →
    step s = exec i { s with
      agenda := rest
      issuer := iss
      rsp := if iss = .H then none else s.rsp
      sRes := if iss = .S then none else s.sRes }

/-- A well-formed operation's word put before the machine from outside is the next thing that runs, from an
issuer that may use it (30_encoding.md R80, R85; log entry 1). -/
def Obligations.PlacedWordRunsNext : Prop :=
  ∀ (s : State) (i : Instr), i.wellFormed = true →
    ∃ iss : Issuer, mayIssue iss i.op = true ∧
      step (s.withFetchWord 40 (encode i).toNat) = exec i (s.accept iss)

/-- The button port's words: a pulse on each button is its ADJMODE or ADJBRI word with issuer B, and issuer B
forms no other word (30_encoding.md R92). -/
def Obligations.ButtonPulsesFormTheirWords : Prop :=
  (∀ c : ClockIn, c.rst = false →
    (c.modeInc = true → Action.word .B 0x0200000000 ∈ c.actions) ∧
    (c.modeDec = true → Action.word .B 0x0200000001 ∈ c.actions) ∧
    (c.briInc = true → Action.word .B 0x0400000000 ∈ c.actions) ∧
    (c.briDec = true → Action.word .B 0x0400000001 ∈ c.actions)) ∧
  (∀ (c : ClockIn) (w : OpWord), Action.word .B w ∈ c.actions →
    (w = 0x0200000000 ∧ c.modeInc = true) ∨ (w = 0x0200000001 ∧ c.modeDec = true) ∨
    (w = 0x0400000000 ∧ c.briInc = true) ∨ (w = 0x0400000001 ∧ c.briDec = true))

/-- The order inside one clock: the host's word, the four buttons in their fixed order, the sequencer's slot
last; with `rst` high there is the reset and nothing else (60_exceptions.md R336; 70_reset_and_hazards.md
R370). When the agenda is empty a step begins the next clock with these actions (log entries 2 and 3). -/
def Obligations.ClockActionsInOrder : Prop :=
  (∀ (cmd : Option OpWord) (tick mi md bi bd : Bool) (o : Option Consumer),
    ClockIn.actions ⟨false, tick, cmd, mi, md, bi, bd, o⟩ =
      cmd.toList.map (Action.word .H) ++
      ([(mi, Button.modeInc), (md, .modeDec), (bi, .briInc), (bd, .briDec)].filter (·.1)).map
        (fun b => Action.word .B b.2.word) ++
      [Action.sequencer tick]) ∧
  (∀ c : ClockIn, c.rst = true → c.actions = [Action.reset]) ∧
  (∀ (s : State) (c : ClockIn) (rest : List ClockIn), s.agenda = [] → s.inputs = c :: rest →
    step s = .next { s with
      agenda := c.actions, inputs := rest, consumer := c.outReady.getD s.consumer, clockDraws := s.drawPos
      rsp := none, sRes := none })

/-- Reset: every piece of state takes the value of the reset table, both in the state a model starts from and
by `rst`, which leaves the parameters and the random source as they are (10_state.md R48;
70_reset_and_hazards.md R370, R371). That the inputs still to come, the consumer and the render times are kept is
log entry 18, and that a render cut off in RENDER had taken no draw is log entry 5. -/
def Obligations.ResetTakesTableValues : Prop :=
  (∀ s : State, (s = State.reset ∨ ∃ (u : State) (rest : List Action),
      u.agenda = .reset :: rest ∧ step u = .next s) →
    s.mode = 0 ∧ s.bright = s.cfg.initBright ∧ s.sMode = 0 ∧ s.sBright = 0 ∧ s.lastMode = 31 ∧
    s.x = ⟨0, 0, 0, 0⟩ ∧ (∀ a, s.fb.read a = Rgb.black) ∧ s.seq = .wait ∧ s.delay = 0 ∧ s.diag = 0 ∧
    s.outLog = []) ∧
  State.reset.cfg.initBright = 255 ∧
  (∀ (u : State) (rest : List Action), u.agenda = .reset :: rest →
    ∃ t, step u = .next t ∧ t.cfg = u.cfg ∧ t.draws = u.draws ∧ t.drawPos = u.drawPos ∧ t.agenda = rest ∧
      t.inputs = u.inputs ∧ t.consumer = u.consumer ∧ t.renderLats = u.renderLats)

/-- Start-up: the first two steps after reset begin a clock and run a whole frame of mode 0 in it, without
waiting for a tick; the rainbow starts at hue 1, the frame goes out at brightness 255, DELAY takes 20
(70_reset_and_hazards.md R372; 45_modes_0_13.md R240). That the clock is quiet, the render takes no time and the
consumer is ready are the values of log entries 3, 5 and 6. -/
def Obligations.FirstFrameAfterReset : Prop :=
  ∃ s t : State, step State.reset = .next s ∧ step s = .next t ∧
    t.outLog = [⟨(List.range 48).map (fun p => hsv2rgb (BitVec.ofNat 8 (1 + 256 * p / 48)) 255 255) ++
      (List.range 48).map (fun p => hsv2rgb (BitVec.ofNat 8 (1 + 256 * (47 - p) / 48)) 255 255), 20⟩] ∧
    t.x = ⟨1, 0, 0, 0⟩ ∧ t.lastMode = 0 ∧ t.delay = 20 ∧ t.seq = .wait ∧ t.diag = 0 ∧ t.drawPos = 0

/-! ### The configuration operations -/

/-- NOP: the all-zero word, from the host, changes nothing; with any payload bit set the word is dropped with
ILLOP (47_mode_controller.md R301), from another issuer with PRIV (30_encoding.md R87); that the sequencer's is
dropped so is the model's reading, log entry 11. -/
def Obligations.NopLeavesEverything : Prop :=
  (∀ s : State, s.issuer = .H → exec .nop s = .next s) ∧
  (∀ s : State, s.runWord .H 0x0000000000 = .next (s.accept .H)) ∧
  (∀ (s : State) (w : OpWord), opcodeOf w = 0 → w ≠ 0 →
    s.runWord .H w = .next { s.accept .H with diag := s.diag ||| 0b00010#5 }) ∧
  (∀ (s : State) (iss : Issuer) (w : OpWord), opcodeOf w = 0 → iss ≠ .H →
    s.runWord iss w = .next { s.accept iss with diag := s.diag ||| 0b00100#5 })

/-- SETMODE and CFGUPD.M: a request in 0..26 is written, any other is dropped with RANGE; nothing else
changes (47_mode_controller.md R302, R306). -/
def Obligations.ModeRequestWrittenOrDropped : Prop :=
  ∀ (s : State) (imm : BitVec 16), s.issuer = .H →
    (∀ m : BitVec 5, (m.toNat : Int) = imm.toInt → m.toNat ≤ 26 →
      exec (.setmode imm) s = .next { s with mode := m } ∧
      exec (.cfgupdM imm) s = .next { s with mode := m }) ∧
    (imm.toInt < 0 ∨ 26 < imm.toInt →
      exec (.setmode imm) s = .next { s with diag := s.diag ||| 0b00001#5 } ∧
      exec (.cfgupdM imm) s = .next { s with diag := s.diag ||| 0b00001#5 })

/-- ADJMODE from the host or a button steps the mode by one modulo 27; nothing else changes
(47_mode_controller.md R303). -/
def Obligations.AdjmodeStepsModulo27 : Prop :=
  ∀ s : State, s.issuer ≠ .S → s.mode.toNat ≤ 26 →
    (∃ m : BitVec 5, exec (.adjmode .plus) s = .next { s with mode := m } ∧
      m.toNat = (s.mode.toNat + 1) % 27) ∧
    (∃ m : BitVec 5, exec (.adjmode .minus) s = .next { s with mode := m } ∧
      (m.toNat : Int) = ((s.mode.toNat : Int) - 1) % 27)

/-- SETBRI stores its signed operand clamped to 0..255; ADJBRI steps the brightness by ten, clamped, without
wrap; no event, nothing else changes (47_mode_controller.md R304, R305). -/
def Obligations.BrightnessRequestsClamp : Prop :=
  ∀ s : State,
    (∀ imm : BitVec 16, s.issuer = .H →
      ∃ b : Byte, exec (.setbri imm) s = .next { s with bright := b } ∧
        (b.toNat : Int) = min 255 (max 0 imm.toInt)) ∧
    (s.issuer ≠ .S →
      (∃ b : Byte, exec (.adjbri .plus) s = .next { s with bright := b } ∧
        b.toNat = min 255 (s.bright.toNat + 10)) ∧
      (∃ b : Byte, exec (.adjbri .minus) s = .next { s with bright := b } ∧
        (b.toNat : Int) = max 0 ((s.bright.toNat : Int) - 10)))

/-- CFGUPD.B and CFGUPD.MB: each field is judged on its own, written when in range and else left as it was;
RANGE is set when a field was out of range; nothing else changes (47_mode_controller.md R307, R308). -/
def Obligations.NetworkUpdateJudgesEachField : Prop :=
  ∀ (s : State) (mode16 bri16 : BitVec 16), s.issuer = .H →
    let okm : Prop := 0 ≤ mode16.toInt ∧ mode16.toInt ≤ 26
    let okb : Prop := 0 ≤ bri16.toInt ∧ bri16.toInt ≤ 255
    ∃ (m : BitVec 5) (b : Byte) (dB dMB : BitVec 5),
      exec (.cfgupdB bri16) s = .next { s with bright := b, diag := dB } ∧
      exec (.cfgupdMB mode16 bri16) s = .next { s with mode := m, bright := b, diag := dMB } ∧
      (okm → (m.toNat : Int) = mode16.toInt) ∧ (¬okm → m = s.mode) ∧
      (okb → (b.toNat : Int) = bri16.toInt) ∧ (¬okb → b = s.bright) ∧
      (okb → dB = s.diag) ∧ (¬okb → dB = s.diag ||| 0b00001#5) ∧
      (okm ∧ okb → dMB = s.diag) ∧ (¬(okm ∧ okb) → dMB = s.diag ||| 0b00001#5)

/-- MODE and BRIGHT change by the reset or by a word of one of the seven configuration operations from the
host or the buttons, and by nothing else: the sequencer never changes them (44_mode_sequencer.md R216;
47_mode_controller.md R310 (5)). -/
def Obligations.OnlyConfigurationWritesScalars : Prop :=
  ∀ s t : State, step s = .next t → (t.mode ≠ s.mode ∨ t.bright ≠ s.bright) →
    (∃ rest, s.agenda = .reset :: rest) ∨
    (∃ (iss : Issuer) (w : OpWord) (rest : List Action) (i : Instr),
      s.agenda = .word iss w :: rest ∧ iss ≠ .S ∧ decode w = .ok i ∧
      i.op ∈ [Op.setmode, .adjmode, .setbri, .adjbri, .cfgupdM, .cfgupdB, .cfgupdMB])

/-- No word on a port, legal or not, changes anything but MODE, BRIGHT and DIAG, besides the response wires
and the record of who issued it; and every word is taken (60_exceptions.md R341; 70_reset_and_hazards.md
R388). -/
def Obligations.PortWordsChangeOnlyConfig : Prop :=
  ∀ (s : State) (iss : Issuer) (w : OpWord) (rest : List Action), iss ≠ .S →
    s.agenda = .word iss w :: rest →
    ∃ t : State, step s = .next t ∧
      t = { s with
        agenda := rest, issuer := iss, mode := t.mode, bright := t.bright, diag := t.diag, rsp := t.rsp }

/-! ### Ring geometry -/

/-- MAPPIX and UNMAP: the index of a logical position on each ring, and the answer for every index; each
undoes the other (40_ring_geometry.md R111, R112, R116; the response word, 30_encoding.md R84). That the sequencer
is given UNMAP's three parts in the layout of the response word is the model's choice, log entry 27. -/
def Obligations.MapperAndItsInverse : Prop :=
  (∀ (s : State) (pos : BitVec 6),
    s.answers (.mappix .A pos) (BitVec.ofNat 32 (pos.toNat % 48)) ∧
    s.answers (.mappix .B pos) (BitVec.ofNat 32 (48 + (47 - pos.toNat % 48)))) ∧
  (∀ (s : State) (idx : BitVec 7),
    (idx.toNat ≤ 47 → s.answers (.unmap idx) (BitVec.ofNat 32 (2 ^ 31 + idx.toNat))) ∧
    (48 ≤ idx.toNat → idx.toNat ≤ 95 →
      s.answers (.unmap idx) (BitVec.ofNat 32 (2 ^ 31 + 2 ^ 8 + (95 - idx.toNat)))) ∧
    (96 ≤ idx.toNat → s.answers (.unmap idx) 0)) ∧
  (∀ (ring : Ring) (pos : BitVec 6), pos.toNat ≤ 47 → unmapPix (mapPix ring pos) = some (ring, pos)) ∧
  (∀ idx : BitVec 7, idx.toNat ≤ 95 →
    ∃ (ring : Ring) (pos : BitVec 6), unmapPix idx = some (ring, pos) ∧ mapPix ring pos = idx)

/-- Positions wrap: a geometry operation gives the same for a position field and for the field reduced modulo
48; a field of 50 means position 2 (40_ring_geometry.md R110). -/
def Obligations.PositionFieldsReduceModulo48 : Prop :=
  (∀ (s : State) (p q : BitVec 6) (ring : Ring) (other : BitVec 6), q.toNat = p.toNat % 48 →
    exec (.mappix ring p) s = exec (.mappix ring q) s ∧
    exec (.cdist p other) s = exec (.cdist q other) s ∧
    exec (.cdist other p) s = exec (.cdist other q) s ∧
    exec (.cfwd p other) s = exec (.cfwd q other) s ∧
    exec (.cfwd other p) s = exec (.cfwd other q) s) ∧
  (∀ (s : State) (ring : Ring), exec (.mappix ring 50) s = exec (.mappix ring 2) s)

/-- WRAP48 answers the Euclidean remainder of its signed operand modulo 48. CFWD answers the number of forward
steps from `a` to `b`, CDIST the number along the shorter way; CDIST is symmetric and the two CFWD of a pair add
to 48 unless both are 0 (40_ring_geometry.md R113, R114, R115). -/
def Obligations.WrapAndCircularDistances : Prop :=
  (∀ (s : State) (imm : BitVec 16),
    ∃ r : Nat, r ≤ 47 ∧ (imm.toInt - (r : Int)) % 48 = 0 ∧ s.answers (.wrap48 imm) (BitVec.ofNat 32 r)) ∧
  (∀ (s : State) (a b : BitVec 6),
    ∃ k : Nat, k ≤ 47 ∧ (a.toNat + k) % 48 = b.toNat % 48 ∧
      s.answers (.cfwd a b) (BitVec.ofNat 32 k) ∧ s.answers (.cdist a b) (BitVec.ofNat 32 (min k (48 - k)))) ∧
  (∀ a b : BitVec 6, cdist a b = cdist b a ∧ cdist a b = min (cfwd a b) (cfwd b a) ∧
    (cfwd a b + cfwd b a = 48 ∨ (cfwd a b = 0 ∧ cfwd b a = 0)))

/-! ### Colour utilities -/

/-- GAMMA8 answers `255 * (v / 255) ^ 2.2` rounded to the nearest integer: twice the answer lies within 1 of
twice that value, strictly, here raised to the fifth power and cleared of fractions, so that no real number
is needed (41_color_utilities.md R131). -/
def Obligations.GammaRoundsToNearest : Prop :=
  ∀ (s : State) (v : Byte),
    ∃ g : Byte, s.answers (.gamma8 v) (g.setWidth 32) ∧
      (2 * (g.toNat : Int) - 1) ^ 5 * 255 ^ 11 < 510 ^ 5 * (v.toNat : Int) ^ 11 ∧
      510 ^ 5 * (v.toNat : Int) ^ 11 < (2 * (g.toNat : Int) + 1) ^ 5 * 255 ^ 11

/-- The 8-bit scaling primitive: its value, its identities, its monotonicity, its bounds, and the division by
255 without a divider (41_color_utilities.md R132). -/
def Obligations.ScalingPrimitiveLaws : Prop :=
  (∀ a b : Byte, (sc255 a b).toNat = a.toNat * b.toNat / 255) ∧
  (∀ a : Byte, sc255 a 255 = a ∧ sc255 a 0 = 0 ∧ sc255 255 a = a) ∧
  (∀ a a' b b' : Byte, a ≤ a' → b ≤ b' → sc255 a b ≤ sc255 a' b') ∧
  (∀ a b : Byte, sc255 a b ≤ a ∧ sc255 a b ≤ b) ∧
  (∀ x : Nat, x ≤ 65025 → x / 255 = (x + 1 + x / 256) / 256)

/-- HSV2RGB: the six-sector conversion, sector by sector, in integers (41_color_utilities.md R133). -/
def Obligations.HsvSixSectors : Prop :=
  ∀ (s : State) (h sat v : Byte),
    let f := 6 * h.toNat % 256
    let p := v.toNat * (255 - sat.toNat) / 255
    let q := v.toNat * (255 - sat.toNat * f / 255) / 255
    let t := v.toNat * (255 - sat.toNat * (255 - f) / 255) / 255
    ∃ r g b : Nat, s.answers (.hsv2rgb h sat v) (BitVec.ofNat 32 (65536 * r + 256 * g + b)) ∧
      (h.toNat ≤ 42 → (r, g, b) = (v.toNat, t, p)) ∧
      (43 ≤ h.toNat → h.toNat ≤ 85 → (r, g, b) = (q, v.toNat, p)) ∧
      (86 ≤ h.toNat → h.toNat ≤ 127 → (r, g, b) = (p, v.toNat, t)) ∧
      (128 ≤ h.toNat → h.toNat ≤ 170 → (r, g, b) = (p, q, v.toNat)) ∧
      (171 ≤ h.toNat → h.toNat ≤ 213 → (r, g, b) = (t, p, v.toNat)) ∧
      (214 ≤ h.toNat → (r, g, b) = (v.toNat, p, q))

/-- HUEDIST answers the closed form, which is the document's error-accumulating iteration carried out exactly;
with a ring size of 0 it is dropped with ILLOP (30_encoding.md R86). Over the 48 positions of a ring the gaps are
5, 5, 6 repeated and the gap back to position 0 is 6, from any starting hue (41_color_utilities.md R135, R136).
That `exec` drops the ill-formed term with ring size 0, which no word decodes to, is the model's choice, log entry
24. -/
def Obligations.HueDistributionIsIteration : Prop :=
  (∀ (s : State) (start n i : Byte), n ≠ 0 →
    s.answers (.huedist start n i) (BitVec.ofNat 32 ((hueIteration start.toNat n.toNat i.toNat).1 % 256)) ∧
    s.answers (.huedist start n i) (BitVec.ofNat 32 ((start.toNat + 256 * i.toNat / n.toNat) % 256))) ∧
  (∀ (s : State) (start i : Byte), s.issuer ≠ .B →
    exec (.huedist start 0 i) s = .next { s with diag := s.diag ||| 0b00010#5 }) ∧
  (∀ start i : Byte, i.toNat ≤ 47 →
    (i.toNat % 3 ≠ 2 → hueDist start 48 (i + 1) - hueDist start 48 i = 5) ∧
    (i.toNat % 3 = 2 → hueDist start 48 (i + 1) - hueDist start 48 i = 6)) ∧
  (∀ start : Byte, hueDist start 48 0 = start ∧ hueDist start 48 48 = start)

/-- SCALE8 answers `v * b / 255` and SCALE48 answers `v * 48 / 256`, a logical position
(41_color_utilities.md R137, R138). -/
def Obligations.ScalesDivideDown : Prop :=
  ∀ (s : State) (v b : Byte),
    s.answers (.scale8 v b) (BitVec.ofNat 32 (v.toNat * b.toNat / 255)) ∧ v.toNat * b.toNat / 255 ≤ v.toNat ∧
    s.answers (.scale48 v) (BitVec.ofNat 32 (v.toNat * 48 / 256)) ∧ v.toNat * 48 / 256 ≤ 47

/-! ### Oscillators and draws -/

/-- OSC.TRI: the triangle of the low byte of the argument, segment by segment (42_oscillators.md R150,
R152). -/
def Obligations.TriangleSegments : Prop :=
  ∀ (s : State) (idx scale : Byte) (phase : BitVec 16),
    let x := (idx.toNat * scale.toNat + phase.toNat) % 256
    (x ≤ 63 → s.answers (.oscTri idx scale phase) (BitVec.ofNat 32 (2 * x))) ∧
    (64 ≤ x → x ≤ 127 → s.answers (.oscTri idx scale phase) (BitVec.ofNat 32 (2 * x + 1))) ∧
    (128 ≤ x → x ≤ 191 → s.answers (.oscTri idx scale phase) (BitVec.ofNat 32 (2 * (255 - x) + 1))) ∧
    (192 ≤ x → s.answers (.oscTri idx scale phase) (BitVec.ofNat 32 (2 * (255 - x))))

/-- OSC.SIN answers the table entry at the low byte of the argument; OSC.NOISE the point on the straight line
between the lattice bytes of its cell and the next, which lies between them (42_oscillators.md R150, R154,
R155, R157). For every content of the two tables. -/
def Obligations.SineAndNoiseReadTables : Prop :=
  ∀ (s : State) (idx scale : Byte) (phase : BitVec 16),
    let arg := (idx.toNat * scale.toNat + phase.toNat) % 65536
    let a := (s.cfg.hashLut[Fin.ofNat 256 (arg / 256)]).toNat
    let b := (s.cfg.hashLut[Fin.ofNat 256 (arg / 256 + 1)]).toNat
    let r := (a * (256 - arg % 256) + b * (arg % 256)) / 256
    s.answers (.oscSin idx scale phase) ((s.cfg.sinLut[Fin.ofNat 256 arg]).setWidth 32) ∧
    s.answers (.oscNoise idx scale phase) (BitVec.ofNat 32 r) ∧ min a b ≤ r ∧ r ≤ max a b

/-- RAND8 answers the high byte of the next draw, RANDN the draw scaled below `n`; each takes one draw, and
RANDN with `n = 0` is dropped with ILLOP and takes none (42_oscillators.md R160, R161, R162). For every stream of
draws; that listed draws come before the free stream is the model's choice, log entry 4, and so is what `exec`
does with the ill-formed term RANDN 0, which no word decodes to, log entry 24. -/
def Obligations.DrawsAnswerScaledWords : Prop :=
  ∀ s : State, s.issuer = .S →
    (exec .rand8 s = .next { s with
      sRes := some (BitVec.ofNat 32 ((s.drawAhead 0).toNat / 256))
      draws := s.draws.tail
      drawPos := s.drawPos + 1 }) ∧
    (∀ n : Byte, n ≠ 0 →
      exec (.randn n) s = .next { s with
        sRes := some (BitVec.ofNat 32 ((s.drawAhead 0).toNat * n.toNat / 65536))
        draws := s.draws.tail
        drawPos := s.drawPos + 1 } ∧
      (s.drawAhead 0).toNat * n.toNat / 65536 < n.toNat) ∧
    exec (.randn 0) s = .next { s with diag := s.diag ||| 0b00010#5 }

/-! ### The frame buffer -/

/-- FILL writes every pixel, FILLRING the 48 pixels of its ring and no other; nothing but the frame buffer
changes (43_frame_buffer.md R181, R182). -/
def Obligations.FillsPaintTheirSpan : Prop :=
  ∀ (s : State) (rgb : Rgb), s.issuer = .S → s.fb.wf = true →
    (∃ m : Memory, exec (.fill rgb) s = .next { s with fb := m } ∧ m.wf = true ∧
      ∀ a, m.read a = if a ≤ 95 then rgb else s.fb.read a) ∧
    (∃ m : Memory, exec (.fillring .A rgb) s = .next { s with fb := m } ∧ m.wf = true ∧
      ∀ a, m.read a = if a ≤ 47 then rgb else s.fb.read a) ∧
    (∃ m : Memory, exec (.fillring .B rgb) s = .next { s with fb := m } ∧ m.wf = true ∧
      ∀ a, m.read a = if 48 ≤ a ∧ a ≤ 95 then rgb else s.fb.read a)

/-- SETPIX writes the one pixel its index names; GETPIX gives the sequencer the pixel its index names, red in
bits 23 to 16, and changes nothing else. An index of 96 or more sets IDX and touches no pixel, and GETPIX then
gives 0 (43_frame_buffer.md R183, R184; 20_memory.md R53, R54). -/
def Obligations.SetpixAndGetpixTouchOnePixel : Prop :=
  (∀ (s : State) (idx : BitVec 7) (rgb : Rgb), s.issuer = .S → s.fb.wf = true →
    (idx.toNat ≤ 95 → ∃ m : Memory, exec (.setpix idx rgb) s = .next { s with fb := m } ∧ m.wf = true ∧
      ∀ a, m.read a = if a = idx.toNat then rgb else s.fb.read a) ∧
    (96 ≤ idx.toNat → exec (.setpix idx rgb) s = .next { s with diag := s.diag ||| 0b01000#5 })) ∧
  (∀ (s : State) (idx : BitVec 7), s.issuer = .S →
    (idx.toNat ≤ 95 →
      exec (.getpix idx) s = .next { s with
        sRes := some (BitVec.ofNat 32 (65536 * (s.fb.read idx.toNat).r.toNat +
          256 * (s.fb.read idx.toNat).g.toNat + (s.fb.read idx.toNat).b.toNat)) }) ∧
    (96 ≤ idx.toNat →
      exec (.getpix idx) s = .next { s with sRes := some 0, diag := s.diag ||| 0b01000#5 }))

/-- FADEALL takes the decay amount from every channel of every pixel and stops at 0, FADEPIX does so for the
one pixel its index names; an index of 96 or more sets IDX and touches no pixel (43_frame_buffer.md R185,
R186). -/
def Obligations.FadesSubtractPerChannel : Prop :=
  ∀ (s : State) (k : Byte), s.issuer = .S → s.fb.wf = true →
    (∃ m : Memory, exec (.fadeall k) s = .next { s with fb := m } ∧ m.wf = true ∧
      ∀ (a : Nat) (ch : Fin 3),
        (((m.read a).channel ch).toNat : Int) = max 0 ((((s.fb.read a).channel ch).toNat : Int) - k.toNat)) ∧
    (∀ idx : BitVec 7,
      (idx.toNat ≤ 95 → ∃ m : Memory, exec (.fadepix idx k) s = .next { s with fb := m } ∧ m.wf = true ∧
        (∀ a, a ≠ idx.toNat → m.read a = s.fb.read a) ∧
        ∀ ch : Fin 3, (((m.read idx.toNat).channel ch).toNat : Int) =
          max 0 ((((s.fb.read idx.toNat).channel ch).toNat : Int) - k.toNat)) ∧
      (96 ≤ idx.toNat → exec (.fadepix idx k) s = .next { s with diag := s.diag ||| 0b01000#5 }))

/-- ADDPIX adds a colour to the one pixel its index names, each channel stopping at 255; an index of 96 or
more sets IDX and touches no pixel (43_frame_buffer.md R187). -/
def Obligations.AddpixSaturatesPerChannel : Prop :=
  ∀ (s : State) (idx : BitVec 7) (rgb : Rgb), s.issuer = .S → s.fb.wf = true →
    (idx.toNat ≤ 95 → ∃ m : Memory, exec (.addpix idx rgb) s = .next { s with fb := m } ∧ m.wf = true ∧
      (∀ a, a ≠ idx.toNat → m.read a = s.fb.read a) ∧
      ∀ ch : Fin 3, ((m.read idx.toNat).channel ch).toNat =
        min 255 (((s.fb.read idx.toNat).channel ch).toNat + (rgb.channel ch).toNat)) ∧
    (96 ≤ idx.toNat → exec (.addpix idx rgb) s = .next { s with diag := s.diag ||| 0b01000#5 })

/-- The laws of the blender and fade unit, for every pixel and every channel: fades never increase, reach 0
exactly from values up to `k`, and compose; an add never decreases and stays within 255; a value `v` is gone
after `ceil (v / k)` fades and not before, for a full channel and `k` in 10..80 after 4 to 26 of them
(43_frame_buffer.md R189). -/
def Obligations.BlendAndFadeLaws : Prop :=
  (∀ (s t : State) (k : Byte) (idx : BitVec 7) (ch : Fin 3), s.issuer = .S → s.fb.wf = true →
    idx.toNat ≤ 95 → (exec (.fadeall k) s = .next t ∨ exec (.fadepix idx k) s = .next t) →
    (t.fb.read idx.toNat).channel ch ≤ (s.fb.read idx.toNat).channel ch ∧
    ((t.fb.read idx.toNat).channel ch = 0 ↔ (s.fb.read idx.toNat).channel ch ≤ k)) ∧
  (∀ (s t : State) (j k l : Byte), s.issuer = .S → s.fb.wf = true → l.toNat = min 255 (j.toNat + k.toNat) →
    exec (.fadeall j) s = .next t → exec (.fadeall k) t = exec (.fadeall l) s) ∧
  (∀ (s t : State) (rgb : Rgb) (idx : BitVec 7) (ch : Fin 3), s.issuer = .S → s.fb.wf = true →
    idx.toNat ≤ 95 → exec (.addpix idx rgb) s = .next t →
    (s.fb.read idx.toNat).channel ch ≤ (t.fb.read idx.toNat).channel ch ∧
    ((t.fb.read idx.toNat).channel ch).toNat ≤ 255) ∧
  (∀ (v k : Byte) (n : Nat), k ≠ 0 →
    ((fadeChannel k)^[n] v = 0 ↔ (v.toNat + k.toNat - 1) / k.toNat ≤ n)) ∧
  (∀ (k : Byte) (n : Nat), 10 ≤ k.toNat → k.toNat ≤ 80 →
    (26 ≤ n → (fadeChannel k)^[n] 255 = 0) ∧ (n < 4 → (fadeChannel k)^[n] 255 ≠ 0))

/-! ### PRESENT and the hand-off -/

/-- PRESENT with a consumer that takes every pixel: the 96 pixels, each channel scaled by the operand, are
appended to OUT_LOG in index order and the sequencer is back in WAIT; the frame buffer is not written. With a
consumer that takes `n` pixels, fewer than 96, they are handed over and the sequencer stays in PRESENT
(43_frame_buffer.md R188; 70_reset_and_hazards.md R384). The delay an issued PRESENT logs is the frame's, and
outside a frame the delay there is (log entry 14); that a ready consumer takes all pixels in one action is log
entry 6. -/
def Obligations.PresentHandsFrameOver : Prop :=
  ∀ (s : State) (b : Byte), s.issuer = .S →
    (s.consumer = .ready →
      exec (.present b) s = .next { s with
        outLog := s.outLog ++ [⟨presented s.fb b, s.frameDelay.getD s.delay⟩]
        delay := s.frameDelay.getD s.delay
        frameDelay := none, outBright := b, handoff := [], seq := .wait }) ∧
    (∀ n : Nat, s.consumer = .accepts n → n ≤ 95 →
      exec (.present b) s = .next { s with
        seq := .present, outBright := b, consumer := .accepts 0
        handoff := (List.range n).map (fun i => scaleRgb b (s.fb.read i)) }) ∧
    (∀ n : Nat, s.consumer = .accepts n → 96 ≤ n →
      exec (.present b) s = .next { s with
        outLog := s.outLog ++ [⟨presented s.fb b, s.frameDelay.getD s.delay⟩]
        delay := s.frameDelay.getD s.delay, consumer := .accepts (n - 96)
        frameDelay := none, outBright := b, handoff := [], seq := .wait })

/-- Back-pressure: a hand-off of which `k` pixels are done goes on where it stood, in any clock; while the consumer
does not take the last pixel nothing but the hand-off moves, and when it does the log has the whole frame as it
would have been without the pause, DELAY takes the frame's delay, and nothing else has changed
(70_reset_and_hazards.md R384; 20_memory.md R67; 44_mode_sequencer.md R210; the consumer is log entry 6). -/
def Obligations.HandoffResumesWhereItStood : Prop :=
  ∀ (s : State) (k : Nat) (tick : Bool), s.seq = .present → k ≤ 95 →
    s.handoff = (List.range k).map s.outPixel →
    (∀ n : Nat, s.consumer = .accepts n → k + n ≤ 95 →
      s.runSequencer tick = .next { s with
        handoff := (List.range (k + n)).map s.outPixel, consumer := .accepts 0 }) ∧
    ((s.consumer = .ready ∨ ∃ n, s.consumer = .accepts n ∧ 96 ≤ k + n) →
      ∃ c : Consumer, (s.consumer = .ready → c = .ready) ∧
        (∀ n, s.consumer = .accepts n → c = .accepts (k + n - 96)) ∧
        s.runSequencer tick = .next { s with
          seq := .wait, handoff := [], consumer := c
          delay := s.frameDelay.getD s.delay
          frameDelay := none
          outLog := s.outLog ++ [⟨presented s.fb s.outBright, s.frameDelay.getD s.delay⟩] })

/-! ### The sequencer -/

/-- FRAME with a render that takes no time runs the whole cycle, for every MODE_TABLE: MODE and BRIGHT are sampled
together, a changed mode is reset, the mode renders, the pixels go out at the sampled brightness. With a consumer
that takes all 96, DELAY takes the mode's delay and the phase is WAIT again; with one that takes `n` of them,
fewer than 96, FRAME ends in PRESENT with those handed over and DELAY not loaded. The whole state after it is
given (44_mode_sequencer.md R210, R212; 70_reset_and_hazards.md R384; the consumer is log entry 6). -/
def Obligations.FrameRunsWholeCycle : Prop :=
  ∀ s : State, s.FrameDue →
    let c0 := if s.mode = s.lastMode then s.canvas else resetMode s.cfg s.mode.toNat s.canvas
    let c1 := renderMode s.cfg s.mode.toNat c0
    let d := delayOf s.cfg s.mode.toNat
    let rendered := { s with
      sMode := s.mode, sBright := s.bright, lastMode := s.mode
      x := c1.x, fb := c1.fb, diag := c1.diag, draws := c1.draws, drawPos := c1.drawPos
      outBright := s.bright, renderLeft := 0, renderLats := s.renderLats.tail }
    let finished := { rendered with
      seq := .wait, delay := d, frameDelay := none, handoff := []
      outLog := s.outLog ++ [⟨presented c1.fb s.bright, d⟩] }
    (s.consumer = .ready → exec .frame s = .next finished) ∧
    (∀ n : Nat, s.consumer = .accepts n → 96 ≤ n →
      exec .frame s = .next { finished with consumer := .accepts (n - 96) }) ∧
    (∀ n : Nat, s.consumer = .accepts n → n ≤ 95 →
      exec .frame s = .next { rendered with
        seq := .present, frameDelay := some d, consumer := .accepts 0
        handoff := (List.range n).map (fun i => scaleRgb s.bright (c1.fb.read i)) })

/-- How long a render takes does not matter: `n` clocks of RENDER after FRAME lead to the very state that a
render without delay leads to (70_reset_and_hazards.md R385, R392; that a render's effects land at its end
is log entry 5). -/
def Obligations.RenderTimeChangesNothing : Prop :=
  ∀ (s : State) (n : Nat) (rest : List Nat), s.issuer = .S → s.seq = .wait → s.delay = 0 →
    s.renderLats = n :: rest →
    ∃ t : State, exec .frame s = .next t ∧
      exec .frame { s with renderLats := 0 :: rest } = .next (State.renderClock^[n] t)

/-- A configuration write during a frame does not touch that frame: in RENDER and PRESENT the sequencer's slot
does the same whatever MODE and BRIGHT have become (70_reset_and_hazards.md R380; 20_memory.md R62). -/
def Obligations.FrameIgnoresLaterWrites : Prop :=
  ∀ (s t : State) (m : BitVec 5) (b : Byte) (tick : Bool), s.seq ≠ .wait →
    s.runSequencer tick = .next t →
    ({ s with mode := m, bright := b } : State).runSequencer tick = .next { t with mode := m, bright := b }

/-- Isolation: the first frame of a newly active mode, of any MODE_TABLE, is the same whatever the modes before it
left in the MS bank and the frame buffer; only the mode, the brightness, the parameters and the draws matter
(44_mode_sequencer.md R213, R219 (1); 10_state.md R32). -/
def Obligations.ResetIsolatesModes : Prop :=
  ∀ s u : State, s.FrameReady → u.FrameReady → s.fb.wf = true → u.fb.wf = true →
    s.mode = u.mode → s.bright = u.bright → s.cfg = u.cfg → s.draws = u.draws → s.drawPos = u.drawPos →
    s.mode ≠ s.lastMode → u.mode ≠ u.lastMode →
    ∃ s' u' : State, exec .frame s = .next s' ∧ exec .frame u = .next u' ∧
      s'.x = u'.x ∧ s'.fb = u'.fb ∧ s'.delay = u'.delay ∧ s'.drawPos = u'.drawPos ∧
      ∃ f : FrameOut, s'.outLog = s.outLog ++ [f] ∧ u'.outLog = u.outLog ++ [f]

/-- An unknown mode is rendered by the fallback: UNKMODE is set, the frame is black and goes out whole, the
delay is FALLBACK_DELAY, for every MODE_TABLE (44_mode_sequencer.md R218). -/
def Obligations.UnknownModeFallsBack : Prop :=
  ∀ s : State, s.FrameReady → s.fb.wf = true → 27 ≤ s.mode.toNat →
    ∃ t : State, exec .frame s = .next t ∧ (∀ a, t.fb.read a = Rgb.black) ∧
      t.diag = s.diag ||| 0b10000#5 ∧ t.delay = s.cfg.fallbackDelay.val ∧ t.seq = .wait ∧
      t.lastMode = s.mode ∧ t.draws = s.draws ∧ t.drawPos = s.drawPos ∧
      t.outLog = s.outLog ++ [⟨List.replicate 96 Rgb.black, s.cfg.fallbackDelay.val⟩]

/-- The delay belongs to the mode: after a frame DELAY and the log hold the delay of the mode's entry of MODE_TABLE,
whatever the state; and the delays of the default table are these (44_mode_sequencer.md R215, R222). -/
def Obligations.FrameLoadsModeDelay : Prop :=
  (∀ (s : State) (e : ModeDesc), s.FrameReady → s.cfg.modeTable[s.mode.toNat]? = some e →
    ∃ (t : State) (pixels : List Rgb), exec .frame s = .next t ∧ t.delay = e.delay ∧
      t.outLog = s.outLog ++ [⟨pixels, e.delay⟩] ∧ pixels.length = 96) ∧
  State.reset.cfg.modeTable.toList.map (fun e => e.delay) =
    [20, 100, 100, 30, 30, 15, 40, 25, 20, 20, 25, 50, 20, 20, 30, 30, 50, 40, 100, 20, 20, 20, 50, 50, 30, 50, 10]

/-- In WAIT with a delay to count, the sequencer's slot counts it down by one in a clock with a tick and does
nothing in a clock without one (44_mode_sequencer.md R211; 60_exceptions.md R345). A FRAME that is not due,
which the sequencer never issues, has no effect (log entry 8). -/
def Obligations.DelayCountsTicks : Prop :=
  (∀ s : State, s.seq = .wait → s.delay ≠ 0 →
    s.runSequencer false = .next s ∧
    ∃ d : Byte, s.runSequencer true = .next { s with delay := d } ∧ d.toNat + 1 = s.delay.toNat) ∧
  (∀ s : State, s.issuer = .S → (s.seq ≠ .wait ∨ s.delay ≠ 0) → exec .frame s = .next s)

/-! ### Modes of the default table -/

/-- Mode 0: `n` frames advance the hue counter by `n` modulo 256, and after them position `p` of both rings
shows the hue distribution from the counter on (45_modes_0_13.md R240; the mirrored index, 40_ring_geometry.md
R117). -/
def Obligations.RainbowAdvancesByOne : Prop :=
  ∀ (s : State) (n : Nat), s.Unhindered → s.cfg.modeTable = modeTable → s.mode = 0 → s.lastMode = 0 →
    s.fb.wf = true → s.x.x0.toNat ≤ 255 →
    (s.frames n).x.x0.toNat = (s.x.x0.toNat + n) % 256 ∧
    (1 ≤ n → ∀ p : Nat, p ≤ 47 →
      (s.frames n).fb.read p = hsv2rgb (BitVec.ofNat 8 (s.x.x0.toNat + n + 256 * p / 48)) 255 255 ∧
      (s.frames n).fb.read (95 - p) = (s.frames n).fb.read p)

/-- Mode 4, entered afresh: after `n` frames, up to 24, the `n` positions from either end are blue and the rest
is black; after 24 more the ends are red over blue; after 48 all is red (45_modes_0_13.md R244). -/
def Obligations.SideWipePaintsFromEnds : Prop :=
  ∀ (s : State) (n p : Nat), s.Unhindered → s.cfg.modeTable = modeTable → s.mode = 4 → s.lastMode ≠ 4 →
    s.fb.wf = true → 1 ≤ n → n ≤ 48 → p ≤ 47 →
    (s.frames n).fb.read p =
      (if n ≤ 24 then (if min p (47 - p) < n then Rgb.blue else Rgb.black)
       else if min p (47 - p) < n - 24 then Rgb.red else Rgb.blue) ∧
    (s.frames n).fb.read (95 - p) = (s.frames n).fb.read p

/-- The bounce modes 12 and 13, entered afresh: after `n` frames the position register has swept the ring from 0 to
47 and back, period 94, and the direction register is 1 from the frame that reaches 47 on; the frame shows the
position before its move on both rings, in mode 12 in a hue that steps by 2, in mode 13 in red with the opposite
position in blue (44_mode_sequencer.md R225; 45_modes_0_13.md R252, R253). -/
def Obligations.BouncePositionSweeps : Prop :=
  ∀ (s : State) (n : Nat), s.Unhindered → s.cfg.modeTable = modeTable → s.fb.wf = true →
    (s.mode = 12 ∨ s.mode = 13) → s.lastMode ≠ s.mode → 1 ≤ n →
    let shown := (s.frames n).fb
    let p := bouncePos (n - 1)
    (s.frames n).x.x0.toNat = bouncePos n ∧ ((s.frames n).x.x1 = if n % 94 < 47 then 0 else 1) ∧
    (s.mode = 12 → shown.read p = hsv2rgb (BitVec.ofNat 8 (2 * (n - 1))) 255 255 ∧
      shown.read (95 - p) = shown.read p) ∧
    (s.mode = 13 → shown.read p = Rgb.red ∧ shown.read (95 - p) = Rgb.red ∧
      shown.read (47 - p) = Rgb.blue ∧ shown.read (48 + p) = Rgb.blue)

/-- The modes that fill the whole buffer, entered afresh, at frame `n` counted from 0: solid colour is red; toggled
flash is blue in every second frame and else black; breathing shows a hue that steps by 16 every 128 frames with
the triangle as its value; flash white is white every fourth frame; thunder pulse is white in the first 5 of every
60; bass drop decays from 255 by 16 a frame and takes a hue 8 further every 16 frames; rave strobe alternates
black with hues 37 apart; full-throttle pulse repeats eight red levels (45_modes_0_13.md R241, R242;
46_modes_14_26.md R260, R262, R263, R264, R265, R266). -/
def Obligations.FillModesFollowCycle : Prop :=
  ∀ (s : State) (n a : Nat), s.Unhindered → s.cfg.modeTable = modeTable → s.lastMode ≠ s.mode →
    s.fb.wf = true → a ≤ 95 →
    let shown := (s.frames (n + 1)).fb.read a
    (s.mode = 1 → shown = Rgb.red) ∧
    (s.mode = 2 → shown = if n % 2 = 0 then Rgb.blue else Rgb.black) ∧
    (s.mode = 20 → shown = hsv2rgb (BitVec.ofNat 8 (16 * (n / 128))) 255 (triWave (2 * n))) ∧
    (s.mode = 22 → shown = if n % 4 = 0 then Rgb.white else Rgb.black) ∧
    (s.mode = 23 → shown = if n % 60 < 5 then Rgb.white else Rgb.black) ∧
    (s.mode = 24 → shown =
      hsv2rgb (BitVec.ofNat 8 (8 * (n / 16))) 255 (BitVec.ofNat 8 (255 - 16 * (n % 16)))) ∧
    (s.mode = 25 → shown =
      if n % 2 = 0 then hsv2rgb (BitVec.ofNat 8 (37 * (n / 2))) 255 255 else Rgb.black) ∧
    (s.mode = 26 → ∀ v : Byte, [0, 64, 129, 193, 255, 191, 126, 62][n % 8]? = some v → shown = ⟨v, 0, 0⟩)

/-- Modes 8 to 14, the fading trails: what was there fades by the mode's decay, then the mode's points are plotted,
or added in modes 8 and 9, at the same logical position of both rings; the registers advance. A mode just entered
finds a black buffer and registers of 0 (45_modes_0_13.md R248 to R253; 46_modes_14_26.md R254;
44_mode_sequencer.md R213, R226; the moves of the bounce modes are in BouncePositionSweeps). -/
def Obligations.TrailModesPlotTheirPoints : Prop :=
  ∀ s : State, s.FrameReady → s.cfg.modeTable = modeTable → s.fb.wf = true →
    s.startBank.inRange s.mode.toNat = true →
    let x0 := s.startBank.x0.toNat
    let x1 := s.startBank.x1.toNat
    let x2 := s.startBank.x2.toNat
    let hsv : Nat → Rgb := fun h => hsv2rgb (BitVec.ofNat 8 h) 255 255
    ∃ t : State, exec .frame s = .next t ∧
      (s.mode = 8 → t.x = ⟨BitVec.ofNat 16 ((x0 + 3) % 256), BitVec.ofNat 16 ((x1 + 1) % 256), 0, 0⟩ ∧
        s.trailsTo t 20 fun p v => if p = s.sinePoint x0 then addRgb (hsv x1) v else v) ∧
      (s.mode = 9 → t.x = ⟨BitVec.ofNat 16 ((x0 + 2) % 256), 0, 0, 0⟩ ∧
        s.trailsTo t 30 fun p v => (List.range 4).foldl
          (fun v j => if p = s.sinePoint (x0 * (j + 1) + 64 * j)
            then addRgb (hsv2rgb (BitVec.ofNat 8 (32 * j)) 200 255) v else v) v) ∧
      (s.mode = 10 → t.x = ⟨BitVec.ofNat 16 ((x0 + 1) % 48), BitVec.ofNat 16 ((x1 + 1) % 256), 0, 0⟩ ∧
        s.trailsTo t 40 fun p v => if p = x0 then hsv x1 else if p = (x0 + 24) % 48 then hsv (x1 + 128) else v) ∧
      (s.mode = 11 → t.x = ⟨BitVec.ofNat 16 ((x0 + 1) % 48), 0, 0, 0⟩ ∧
        s.trailsTo t 50 fun p v => if p % 6 = x0 % 6 then Rgb.white else v) ∧
      (s.mode = 12 → t.x.x2.toNat = (x2 + 2) % 256 ∧
        s.trailsTo t 60 fun p v => if p = x0 then hsv x2 else v) ∧
      (s.mode = 13 →
        s.trailsTo t 40 fun p v => if p = x0 then Rgb.red else if p = 47 - x0 then Rgb.blue else v) ∧
      (s.mode = 14 →
        (t.x = if x0 = 24 then ⟨0, BitVec.ofNat 16 ((x1 + 32) % 256), 0, 0⟩
          else ⟨BitVec.ofNat 16 (x0 + 1), s.startBank.x1, 0, 0⟩) ∧
        s.trailsTo t 80 fun p v => if p = x0 ∨ p = (48 - x0) % 48
          then hsv2rgb (BitVec.ofNat 8 x1) 255 (BitVec.ofNat 8 (255 - 10 * x0)) else v)

/-- Mode 15: a first draw below 0x8000 lights one pixel of any index in any hue, by two more draws; else the
frame is black and one draw was taken (46_modes_14_26.md R255). -/
def Obligations.SparkleTakesOneOrThreeDraws : Prop :=
  ∀ s : State, s.FrameReady → s.cfg.modeTable = modeTable → s.fb.wf = true → s.mode = 15 →
    ∃ t : State, exec .frame s = .next t ∧
      ((s.drawAhead 0).toNat < 0x8000 → t.drawPos = s.drawPos + 3 ∧ t.draws = s.draws.drop 3 ∧
        ∀ a, t.fb.read a = if a = (s.drawAhead 1).toNat * 96 / 65536
          then hsv2rgb (BitVec.ofNat 8 ((s.drawAhead 2).toNat / 256)) 255 255 else Rgb.black) ∧
      (0x8000 ≤ (s.drawAhead 0).toNat → t.drawPos = s.drawPos + 1 ∧ t.draws = s.draws.drop 1 ∧
        ∀ a, t.fb.read a = Rgb.black)

/-- Modes 16 and 18. Firefly: the buffer fades by 10; then for Ring A, and after it for Ring B, a draw below 0x5000
lights one position of the ring in any hue, by two more draws. Bar graph: two draws give the heights of Ring A and
Ring B, 0 to 24; a bar of that height stands at both sides of logical position 0, its hue falling by 4 a step from
96, and the rest is black (46_modes_14_26.md R256, R258; 70_reset_and_hazards.md R386). -/
def Obligations.FireflyAndBarGraphTakeTheirDraws : Prop :=
  ∀ s : State, s.FrameReady → s.cfg.modeTable = modeTable → s.fb.wf = true →
    let d : Nat → Nat := fun k => (s.drawAhead k).toNat
    let hsv : Nat → Rgb := fun h => hsv2rgb (BitVec.ofNat 8 h) 255 255
    ∃ t : State, exec .frame s = .next t ∧
      (s.mode = 16 →
        let k := if d 0 < 0x5000 then 3 else 1
        let used := k + if d k < 0x5000 then 3 else 1
        t.drawPos = s.drawPos + used ∧ t.draws = s.draws.drop used ∧ t.x = s.startBank ∧
        ∀ a, t.fb.read a =
          if d 0 < 0x5000 ∧ a = d 1 * 48 / 65536 then hsv (d 2 / 256)
          else if d k < 0x5000 ∧ a = 95 - d (k + 1) * 48 / 65536 then hsv (d (k + 2) / 256)
          else fadeRgb 10 (s.startPixel a)) ∧
      (s.mode = 18 →
        t.drawPos = s.drawPos + 2 ∧ t.draws = s.draws.drop 2 ∧ t.x = s.startBank ∧
        ∀ p : Nat, p ≤ 47 →
          let h := min p (47 - p)
          (t.fb.read p = if h < d 0 * 25 / 65536 then hsv (96 - 4 * h) else Rgb.black) ∧
          (t.fb.read (95 - p) = if h < d 1 * 25 / 65536 then hsv (96 - 4 * h) else Rgb.black))

/-- Mode 17: the buffer fades by 60 and each ring shows the two positions at the radius from its origin in the
mode's hue; the radius grows by 3, and after radius 12 it is 0 again, two draws give new origins, Ring A's first,
and the hue advances by 32. On entry the mode part of RESET draws the two origins, Ring A's first
(46_modes_14_26.md R257; 44_mode_sequencer.md R213; 70_reset_and_hazards.md R386). -/
def Obligations.ShockwaveExpandsAndDraws : Prop :=
  ∀ s : State, s.FrameReady → s.cfg.modeTable = modeTable → s.fb.wf = true → s.mode = 17 →
    (s.lastMode = 17 → s.x.inRange 17 = true) →
    let origin : Nat → Nat := fun k => (s.drawAhead k).toNat * 48 / 65536
    let oA := if s.lastMode = 17 then s.x.x0.toNat else origin 0
    let oB := if s.lastMode = 17 then s.x.x1.toNat else origin 1
    let k := if s.lastMode = 17 then 0 else 2
    let rad := s.startBank.x2.toNat
    let hue := s.startBank.x3.toNat
    let lit : Nat → Nat → Prop := fun o p => p = (o + rad) % 48 ∨ (p + rad) % 48 = o
    ∃ t : State, exec .frame s = .next t ∧
      (rad + 3 ≤ 12 → t.drawPos = s.drawPos + k ∧ t.draws = s.draws.drop k ∧
        t.x = ⟨BitVec.ofNat 16 oA, BitVec.ofNat 16 oB, BitVec.ofNat 16 (rad + 3), BitVec.ofNat 16 hue⟩) ∧
      (12 < rad + 3 → t.drawPos = s.drawPos + k + 2 ∧ t.draws = s.draws.drop (k + 2) ∧
        t.x = ⟨BitVec.ofNat 16 (origin k), BitVec.ofNat 16 (origin (k + 1)), 0,
          BitVec.ofNat 16 ((hue + 32) % 256)⟩) ∧
      ∀ p : Nat, p ≤ 47 →
        (lit oA p → t.fb.read p = hsv2rgb (BitVec.ofNat 8 hue) 255 255) ∧
        (¬lit oA p → t.fb.read p = fadeRgb 60 (s.startPixel p)) ∧
        (lit oB p → t.fb.read (95 - p) = hsv2rgb (BitVec.ofNat 8 hue) 255 255) ∧
        (¬lit oB p → t.fb.read (95 - p) = fadeRgb 60 (s.startPixel (95 - p)))

/-- A frame of any mode but the four randomized ones takes no draw, its mode's reset included, and does not depend
on the stream: with any other draws to come and from any other position it leads to the same state, but for
those draws and that position (42_oscillators.md R160; 70_reset_and_hazards.md R386; 44_mode_sequencer.md
R222). -/
def Obligations.OnlyRandomizedModesDraw : Prop :=
  ∀ s : State, s.FrameReady → s.cfg.modeTable = modeTable → s.mode.toNat ≤ 26 →
    (s.mode.toNat < 15 ∨ 18 < s.mode.toNat) →
    ∃ t : State, exec .frame s = .next t ∧ t.draws = s.draws ∧ t.drawPos = s.drawPos ∧
      ∀ (draws : List (BitVec 16)) (pos : Nat),
        exec .frame { s with draws := draws, drawPos := pos } = .next { t with draws := draws, drawPos := pos }

/-- Mode 19: pixel `i` shows the hue the noise function has at `40 * i + timePhase`, by physical index, and
timePhase advances by 30. Mode 21: position `p` of both rings shows one hue at the value the sine table has at
`16 * p + phase`, and the phase advances by 8 (46_modes_14_26.md R259, R261; 42_oscillators.md R154, R157). -/
def Obligations.SwirlAndSineSamplePerPixel : Prop :=
  ∀ s : State, s.FrameReady → s.cfg.modeTable = modeTable → s.fb.wf = true →
    let phase := s.startBank.x0
    ∃ t : State, exec .frame s = .next t ∧
      (s.mode = 19 → t.x.x0 = phase + 30 ∧
        ∀ i : Nat, i ≤ 95 →
          t.fb.read i = hsv2rgb (noiseWave s.cfg.hashLut ((40 * i + phase.toNat) % 65536)) 255 255) ∧
      (s.mode = 21 → t.x.x0 = phase + 8 ∧
        ∀ p : Nat, p ≤ 47 →
          t.fb.read p = hsv2rgb 160 255 (s.cfg.sinLut[Fin.ofNat 256 (16 * p + phase.toNat)]) ∧
          t.fb.read (95 - p) = t.fb.read p)

/-- The rotating patterns (modes 3, 5, 6, 7): a position within `w` steps of one of the `n` window centres shows the
mode's colour, the hue of the register or red in mode 5, the rest the background, black or faded by 60 in mode 5,
or the other way round in mode 6; both rings show the same positions; the registers advance by the mode's steps. A
mode just entered finds a black buffer and registers of 0 (44_mode_sequencer.md R213, R224; 45_modes_0_13.md R243,
R245, R246, R247). -/
def Obligations.RotatingPatternsLightWindows : Prop :=
  ∀ (s : State) (m : BitVec 5) (n w step : Nat) (bg : Byte) (invert : Bool) (fixed : Option Rgb) (hstep : Nat),
    (m, n, w, step, bg, invert, fixed, hstep) ∈
      [((3 : BitVec 5), 2, 2, 1, (0 : Byte), false, (none : Option Rgb), 1), (5, 1, 0, 2, 60, false, some Rgb.red, 0),
        (6, 1, 3, 1, 0, true, none, 2), (7, 4, 1, 3, 0, false, none, 4)] →
    s.FrameReady → s.cfg.modeTable = modeTable → s.fb.wf = true → s.mode = m →
    s.startBank.inRange m.toNat = true →
    let x0 := s.startBank.x0.toNat
    let x1 := s.startBank.x1.toNat
    let colour := fixed.getD (hsv2rgb (BitVec.ofNat 8 x1) 255 255)
    let ground : Nat → Rgb := fun a => if bg = 0 then Rgb.black else fadeRgb bg (s.startPixel a)
    ∃ t : State, exec .frame s = .next t ∧
      t.x.x0.toNat = (x0 + step) % 48 ∧ t.x.x1.toNat = (x1 + hstep) % 256 ∧
      ∀ p : Nat, p ≤ 47 →
        let inside : Prop := ∃ j k : Nat, j < n ∧ k ≤ w ∧
          ((p + k) % 48 = (x0 + j * (48 / n)) % 48 ∨ (x0 + j * (48 / n) + k) % 48 = p)
        ((inside ↔ invert = false) → t.fb.read p = colour ∧ t.fb.read (95 - p) = colour) ∧
        ((inside ↔ invert = true) → t.fb.read p = ground p ∧ t.fb.read (95 - p) = ground (95 - p))

/-! ### The whole machine -/

/-- Every step from a legal state leads to a legal state: the mode stays in 0..26, the MS bank, with the default
table, in the ranges of its mode, the frame buffer in its canonical form, the frame in flight the frame buffer
scaled, every frame handed out whole with a delay in 10..100, the delays of MODE_TABLE being in that range
(10_state.md R26, R28 to R31, R34, R35, R40, R41; 20_memory.md R67; 44_mode_sequencer.md R215, R223;
70_reset_and_hazards.md R388). -/
def Obligations.LegalStatesStayLegal : Prop :=
  ∀ s t : State, s.Inv → step s = .next t → t.Inv

/-- The state after reset is legal (10_state.md R48). -/
def Obligations.ResetStateIsLegal : Prop := State.reset.Inv

/-- In a legal state the sequencer raises no event: with the default table no frame forms an index of 96 or
more and no mode is unknown (60_exceptions.md R331; 20_memory.md R54; 44_mode_sequencer.md R223). -/
def Obligations.SequencerRaisesNoEvent : Prop :=
  ∀ (s : State) (tick : Bool), s.Inv → s.cfg.modeTable = modeTable →
    ∃ t : State, s.runSequencer tick = .next t ∧ t.diag = s.diag

/-- The event bits are sticky: a step clears one only by reset, and a reset clears all (10_state.md R36). -/
def Obligations.EventBitsAreSticky : Prop :=
  ∀ s t : State, step s = .next t →
    ((∃ rest, s.agenda = .reset :: rest) → t.diag = 0) ∧
    ((¬∃ rest, s.agenda = .reset :: rest) → s.diag &&& t.diag = s.diag)

/-- Nothing stops the engine: from every state, whatever words and inputs are still to come, the next step goes
on; and it leaves the log of frames as it is or appends one frame to it, but for a reset, which empties it
(70_reset_and_hazards.md R370, R388; 60_exceptions.md R334; 10_state.md R41). -/
def Obligations.EveryStepGoesOn : Prop :=
  ∀ s : State, ∃ t : State, step s = .next t ∧
    (((∃ rest, s.agenda = .reset :: rest) ∧ t.outLog = []) ∨ t.outLog = s.outLog ∨
      ∃ f : FrameOut, t.outLog = s.outLog ++ [f])

/-- The next frame comes when the delay has been counted: in a legal state in WAIT with nothing to hold a frame
up, as many clocks with a tick as the delay says bring no frame, and the slot after them brings the next, whole
(44_mode_sequencer.md R211, R215; 60_exceptions.md R345; 70_reset_and_hazards.md R388). That the frame starts in
the clock after the last tick is log entry 15. -/
def Obligations.FrameComesAfterDelay : Prop :=
  ∀ s : State, s.Inv → s.Unhindered →
    (∀ k : Nat, k ≤ s.delay.toNat → (State.tickSlot^[k] s).outLog = s.outLog) ∧
    ∃ f : FrameOut, (State.tickSlot^[s.delay.toNat + 1] s).outLog = s.outLog ++ [f] ∧ f.pixels.length = 96
end

