-- ==== Sys2Proof/Laws/Memory.lean ====
section
/-! SUPPORT. The laws of the frame buffer as memory: reading after writing, and that every operation keeps
the canonical form (spec/20_memory.md R50 to R56). -/

namespace Sys2Proof.Machine

theorem isBlack_iff (c : Rgb) : c.isBlack = true ↔ c = Rgb.black := by
  obtain ⟨r, g, b⟩ := c
  simp [Rgb.isBlack, Rgb.black, ← BitVec.toNat_inj, and_assoc]

@[simp] theorem isBlack_black : Rgb.black.isBlack = true := rfl

@[simp] theorem read_nil (i : Nat) : Memory.read [] i = Rgb.black := rfl

/-- Writing one pixel leaves every other pixel alone (R55). -/
theorem read_write_other (m : Memory) {i a : Nat} (c : Rgb) (h : a ≠ i) :
    (m.write i c).read a = m.read a := by
  induction m with
  | nil => cases hb : c.isBlack <;> simp [Memory.write, Memory.read, hb, h]
  | cons p t ih =>
    obtain ⟨j, d⟩ := p
    simp only [Memory.write]
    split
    · split <;> simp [Memory.read, h]
    · split
      · rename_i hij
        subst hij
        split <;> simp [Memory.read, h]
      · simp only [Memory.read, ih]

/-- What the canonical form from a bound says of a smaller index: it is not listed. -/
theorem read_below (m : Memory) {lo a : Nat} (hw : Memory.wfFrom lo m = true) (ha : a < lo) :
    m.read a = Rgb.black := by
  induction m generalizing lo with
  | nil => rfl
  | cons p t ih =>
    obtain ⟨j, d⟩ := p
    simp only [Memory.wfFrom, Bool.and_eq_true, decide_eq_true_eq] at hw
    obtain ⟨⟨⟨hlo, _⟩, _⟩, ht⟩ := hw
    simp only [Memory.read]
    rw [if_neg (by omega), ih ht (by omega)]

theorem wfFrom_mono {m : Memory} {lo lo' : Nat} (hw : Memory.wfFrom lo m = true) (h : lo' ≤ lo) :
    Memory.wfFrom lo' m = true := by
  cases m with
  | nil => rfl
  | cons p t =>
    obtain ⟨j, d⟩ := p
    simp only [Memory.wfFrom, Bool.and_eq_true, decide_eq_true_eq] at hw ⊢
    obtain ⟨⟨⟨hlo, h1⟩, h2⟩, ht⟩ := hw
    exact ⟨⟨⟨by omega, h1⟩, h2⟩, ht⟩

/-- Reading after writing the same pixel, from a lower bound on. -/
theorem read_write_same_from (m : Memory) {lo i : Nat} (c : Rgb) (hw : Memory.wfFrom lo m = true) :
    (m.write i c).read i = c := by
  induction m generalizing lo with
  | nil =>
    cases hb : c.isBlack
    · simp [Memory.write, Memory.read, hb]
    · simp [Memory.write, (isBlack_iff c).1 hb]
  | cons p t ih =>
    obtain ⟨j, d⟩ := p
    have hw' := hw
    simp only [Memory.wfFrom, Bool.and_eq_true, decide_eq_true_eq] at hw'
    obtain ⟨⟨⟨_, h1⟩, h2⟩, ht⟩ := hw'
    simp only [Memory.write]
    split
    · split
      · rename_i hij hb
        rw [(isBlack_iff c).1 hb]
        refine read_below ((j, d) :: t) (lo := j) ?_ hij
        simp only [Memory.wfFrom, Bool.and_eq_true, decide_eq_true_eq]
        exact ⟨⟨⟨Nat.le_refl _, h1⟩, h2⟩, ht⟩
      · simp [Memory.read]
    · split
      · rename_i hij
        subst hij
        split
        · rename_i hb
          rw [(isBlack_iff c).1 hb]
          exact read_below t ht (by omega)
        · simp [Memory.read]
      · rename_i hij
        simp only [Memory.read, if_neg hij]
        exact ih ht

/-- Reading after writing the same pixel gives the pixel written. -/
theorem read_write_same (m : Memory) {i : Nat} (c : Rgb) (hw : m.wf = true) :
    (m.write i c).read i = c := read_write_same_from m c hw

/-- Writing a pixel keeps the canonical form, from a lower bound on. -/
theorem wfFrom_write (m : Memory) {lo i : Nat} (c : Rgb) (hlo : lo ≤ i) (hi : i < numPix)
    (hw : Memory.wfFrom lo m = true) : Memory.wfFrom lo (m.write i c) = true := by
  induction m generalizing lo with
  | nil => cases hb : c.isBlack <;> simp [Memory.write, Memory.wfFrom, hb, hlo, hi]
  | cons p t ih =>
    obtain ⟨j, d⟩ := p
    have hw' := hw
    simp only [Memory.wfFrom, Bool.and_eq_true, decide_eq_true_eq] at hw'
    obtain ⟨⟨⟨h0, h1⟩, h2⟩, ht⟩ := hw'
    simp only [Memory.write]
    split
    · rename_i hij
      split
      · exact hw
      · rename_i hb
        simp only [Memory.wfFrom, Bool.and_eq_true, decide_eq_true_eq]
        exact ⟨⟨⟨hlo, hi⟩, by simpa using hb⟩, ⟨⟨by omega, h1⟩, h2⟩, ht⟩
    · split
      · rename_i hij
        subst hij
        split
        · exact wfFrom_mono ht (by omega)
        · rename_i hb
          simp only [Memory.wfFrom, Bool.and_eq_true, decide_eq_true_eq]
          exact ⟨⟨⟨h0, h1⟩, by simpa using hb⟩, ht⟩
      · simp only [Memory.wfFrom, Bool.and_eq_true, decide_eq_true_eq]
        exact ⟨⟨⟨h0, h1⟩, h2⟩, ih (by omega) ht⟩

/-- Writing a pixel of the buffer keeps the canonical form. -/
theorem wf_write (m : Memory) {i : Nat} (c : Rgb) (hi : i < numPix) (hw : m.wf = true) :
    (m.write i c).wf = true := wfFrom_write m c (Nat.zero_le _) hi hw

/-- A span operation keeps the canonical form. -/
theorem wf_mapSpan (f : Rgb → Rgb) (lo : Nat) (m : Memory) (n : Nat) (hn : lo + n ≤ numPix)
    (hw : m.wf = true) : (Memory.mapSpan f lo m n).wf = true := by
  induction n with
  | zero => exact hw
  | succ n ih => exact wf_write _ _ (by omega) (ih (by omega))

/-- A span operation changes exactly the pixels of the span, each by `f` (R52, R55). -/
theorem read_mapSpan (f : Rgb → Rgb) (lo : Nat) (m : Memory) (n : Nat) (hn : lo + n ≤ numPix)
    (hw : m.wf = true) (a : Nat) :
    (Memory.mapSpan f lo m n).read a = if lo ≤ a ∧ a < lo + n then f (m.read a) else m.read a := by
  induction n with
  | zero => rw [if_neg (by omega)]; rfl
  | succ n ih =>
    have ih := ih (by omega)
    rw [Memory.mapSpan]
    by_cases ha : a = lo + n
    · subst ha
      rw [read_write_same _ _ (wf_mapSpan f lo m n (by omega) hw), if_pos (by omega)]
    · rw [read_write_other _ _ ha, ih]
      by_cases h : lo ≤ a ∧ a < lo + n
      · rw [if_pos h, if_pos (by omega)]
      · rw [if_neg h, if_neg (by omega)]

/-- In the canonical form an index of 96 or more reads black: it names no pixel (R54). -/
theorem read_outside (m : Memory) (hw : m.wf = true) {a : Nat} (ha : numPix ≤ a) :
    m.read a = Rgb.black := by
  suffices h : ∀ lo, Memory.wfFrom lo m = true → m.read a = Rgb.black from h 0 hw
  intro lo h
  induction m generalizing lo with
  | nil => rfl
  | cons p t ih =>
    obtain ⟨j, d⟩ := p
    simp only [Memory.wfFrom, Bool.and_eq_true, decide_eq_true_eq] at h
    obtain ⟨⟨⟨_, h1⟩, _⟩, ht⟩ := h
    simp only [Memory.read]
    rw [if_neg (by omega)]
    exact ih (wfFrom_mono ht (Nat.zero_le _)) _ ht

/-- Two frame buffers in canonical form that read alike are the same data. -/
theorem eq_of_read {m n : Memory} (hm : m.wf = true) (hn : n.wf = true)
    (h : ∀ a, m.read a = n.read a) : m = n := by
  suffices H : ∀ (m n : Memory) (lo : Nat), Memory.wfFrom lo m = true → Memory.wfFrom lo n = true →
      (∀ a, m.read a = n.read a) → m = n from H m n 0 hm hn h
  clear hm hn h m n
  intro m
  induction m with
  | nil =>
    intro n lo _ hn h
    cases n with
    | nil => rfl
    | cons q u =>
      obtain ⟨j, d⟩ := q
      simp only [Memory.wfFrom, Bool.and_eq_true] at hn
      have := h j
      simp only [Memory.read, if_true] at this
      simp [← this] at hn
  | cons p t ih =>
    intro n lo hm hn h
    obtain ⟨i, c⟩ := p
    have hm' := hm
    simp only [Memory.wfFrom, Bool.and_eq_true, decide_eq_true_eq] at hm'
    obtain ⟨⟨⟨_, _⟩, hc⟩, ht⟩ := hm'
    have hcb : c ≠ Rgb.black := by rintro rfl; simp at hc
    cases n with
    | nil =>
      have := h i
      simp only [Memory.read, if_true] at this
      exact absurd this hcb
    | cons q u =>
      obtain ⟨j, d⟩ := q
      have hn' := hn
      simp only [Memory.wfFrom, Bool.and_eq_true, decide_eq_true_eq] at hn'
      obtain ⟨⟨⟨_, _⟩, hd⟩, hu⟩ := hn'
      have hdb : d ≠ Rgb.black := by rintro rfl; simp at hd
      have hij : i = j := by
        rcases Nat.lt_trichotomy i j with hlt | heq | hgt
        · exfalso
          have := h i
          simp only [Memory.read, if_true] at this
          rw [if_neg (by omega), read_below u hu (by omega)] at this
          exact hcb this
        · exact heq
        · exfalso
          have := h j
          simp only [Memory.read, if_true] at this
          rw [if_neg (by omega), read_below t ht (by omega)] at this
          exact hdb this.symm
      subst hij
      have hcd : c = d := by simpa [Memory.read] using h i
      subst hcd
      congr 1
      refine ih u (i + 1) ht hu fun a => ?_
      by_cases ha : a = i
      · subst ha
        rw [read_below t ht (by omega), read_below u hu (by omega)]
      · have := h a
        simpa [Memory.read, ha] using this

end Sys2Proof.Machine
end

