-- ==== Sys2Proof/Laws/Canvas.lean ====
section
/-! SUPPORT. What each shared operation of the frame buffer, the random source and the mode procedures can do,
said once (spec/43_frame_buffer.md R181 to R187; spec/42_oscillators.md R160 to R162; spec/40_ring_geometry.md
R111; spec/30_encoding.md R91). -/

namespace Sys2Proof.Machine

/-! ### Whole-buffer operations -/

@[simp] theorem fill_x (rgb : Rgb) (c : Canvas) : (c.fill rgb).x = c.x := by
  simp only [Canvas.fill]
@[simp] theorem fill_diag (rgb : Rgb) (c : Canvas) : (c.fill rgb).diag = c.diag := by
  simp only [Canvas.fill]
@[simp] theorem fill_draws (rgb : Rgb) (c : Canvas) : (c.fill rgb).draws = c.draws := by
  simp only [Canvas.fill]
@[simp] theorem fill_drawPos (rgb : Rgb) (c : Canvas) : (c.fill rgb).drawPos = c.drawPos := by
  simp only [Canvas.fill]
@[simp] theorem fadeAll_x (k : Byte) (c : Canvas) : (c.fadeAll k).x = c.x := by
  simp only [Canvas.fadeAll]
@[simp] theorem fadeAll_diag (k : Byte) (c : Canvas) : (c.fadeAll k).diag = c.diag := by
  simp only [Canvas.fadeAll]
@[simp] theorem fadeAll_draws (k : Byte) (c : Canvas) : (c.fadeAll k).draws = c.draws := by
  simp only [Canvas.fadeAll]
@[simp] theorem fadeAll_drawPos (k : Byte) (c : Canvas) : (c.fadeAll k).drawPos = c.drawPos := by
  simp only [Canvas.fadeAll]
@[simp] theorem fillRing_x (ring : Ring) (rgb : Rgb) (c : Canvas) : (c.fillRing ring rgb).x = c.x := by
  simp only [Canvas.fillRing]
@[simp] theorem fillRing_diag (ring : Ring) (rgb : Rgb) (c : Canvas) : (c.fillRing ring rgb).diag = c.diag := by
  simp only [Canvas.fillRing]
@[simp] theorem fillRing_draws (ring : Ring) (rgb : Rgb) (c : Canvas) : (c.fillRing ring rgb).draws = c.draws := by
  simp only [Canvas.fillRing]
@[simp] theorem fillRing_drawPos (ring : Ring) (rgb : Rgb) (c : Canvas) : (c.fillRing ring rgb).drawPos = c.drawPos := by
  simp only [Canvas.fillRing]

theorem wf_fill (rgb : Rgb) (c : Canvas) (hw : c.fb.wf = true) : (c.fill rgb).fb.wf = true := by
  have h := wf_mapSpan (fun _ => rgb) 0 c.fb numPix (by decide) hw
  simp only [Canvas.fill, h]

theorem read_fill (rgb : Rgb) (c : Canvas) (hw : c.fb.wf = true) (a : Nat) :
    (c.fill rgb).fb.read a = if a < numPix then rgb else c.fb.read a := by
  have h := read_mapSpan (fun _ => rgb) 0 c.fb numPix (by decide) hw a
  simp only [Canvas.fill, h, Nat.zero_le, true_and, Nat.zero_add]

theorem wf_fadeAll (k : Byte) (c : Canvas) (hw : c.fb.wf = true) : (c.fadeAll k).fb.wf = true := by
  have h := wf_mapSpan (fadeRgb k) 0 c.fb numPix (by decide) hw
  simp only [Canvas.fadeAll, h]

theorem read_fadeAll (k : Byte) (c : Canvas) (hw : c.fb.wf = true) (a : Nat) :
    (c.fadeAll k).fb.read a = if a < numPix then fadeRgb k (c.fb.read a) else c.fb.read a := by
  have h := read_mapSpan (fadeRgb k) 0 c.fb numPix (by decide) hw a
  simp only [Canvas.fadeAll, h, Nat.zero_le, true_and, Nat.zero_add]

theorem wf_fillRing (ring : Ring) (rgb : Rgb) (c : Canvas) (hw : c.fb.wf = true) :
    (c.fillRing ring rgb).fb.wf = true := by
  have hA := wf_mapSpan (fun _ => rgb) 0 c.fb ringSize (by decide) hw
  have hB := wf_mapSpan (fun _ => rgb) ringSize c.fb ringSize (by decide) hw
  cases ring <;> simp only [Canvas.fillRing, hA, hB]

theorem read_fillRing_A (rgb : Rgb) (c : Canvas) (hw : c.fb.wf = true) (a : Nat) :
    (c.fillRing .A rgb).fb.read a = if a < 48 then rgb else c.fb.read a := by
  have h := read_mapSpan (fun _ => rgb) 0 c.fb ringSize (by decide) hw a
  simp only [Canvas.fillRing, h, Nat.zero_le, true_and, Nat.zero_add]

theorem read_fillRing_B (rgb : Rgb) (c : Canvas) (hw : c.fb.wf = true) (a : Nat) :
    (c.fillRing .B rgb).fb.read a = if 48 ≤ a ∧ a < 96 then rgb else c.fb.read a := by
  have h := read_mapSpan (fun _ => rgb) ringSize c.fb ringSize (by decide) hw a
  rw [show ringSize + ringSize = 96 from rfl] at h
  simp only [Canvas.fillRing, h]

/-- After a fill of the whole buffer nothing of the old content is left: the result is the same data for
every canonical buffer. -/
theorem fill_fb_eq (rgb : Rgb) {c d : Canvas} (hc : c.fb.wf = true) (hd : d.fb.wf = true) :
    (c.fill rgb).fb = (d.fill rgb).fb := by
  refine eq_of_read (wf_fill rgb c hc) (wf_fill rgb d hd) fun a => ?_
  rw [read_fill rgb c hc, read_fill rgb d hd]
  split
  · rfl
  · rename_i h
    rw [read_outside _ hc (by omega), read_outside _ hd (by omega)]

/-! ### One-pixel operations -/

@[simp] theorem updatePix_x (idx : BitVec 7) (f : Rgb → Rgb) (c : Canvas) : (c.updatePix idx f).x = c.x := by
  unfold Canvas.updatePix; split <;> rfl
@[simp] theorem updatePix_draws (idx : BitVec 7) (f : Rgb → Rgb) (c : Canvas) :
    (c.updatePix idx f).draws = c.draws := by unfold Canvas.updatePix; split <;> rfl
@[simp] theorem updatePix_drawPos (idx : BitVec 7) (f : Rgb → Rgb) (c : Canvas) :
    (c.updatePix idx f).drawPos = c.drawPos := by unfold Canvas.updatePix; split <;> rfl

theorem updatePix_diag (idx : BitVec 7) (f : Rgb → Rgb) (c : Canvas) (h : idx.toNat < numPix) :
    (c.updatePix idx f).diag = c.diag := by unfold Canvas.updatePix; rw [if_pos h]

theorem wf_updatePix (idx : BitVec 7) (f : Rgb → Rgb) (c : Canvas) (hw : c.fb.wf = true) :
    (c.updatePix idx f).fb.wf = true := by
  unfold Canvas.updatePix
  split
  · exact wf_write _ _ ‹_› hw
  · exact hw

theorem read_updatePix (idx : BitVec 7) (f : Rgb → Rgb) (c : Canvas) (hw : c.fb.wf = true)
    (h : idx.toNat < numPix) (a : Nat) :
    (c.updatePix idx f).fb.read a = if a = idx.toNat then f (c.fb.read a) else c.fb.read a := by
  unfold Canvas.updatePix
  rw [if_pos h]
  split
  · rename_i ha
    subst ha
    exact read_write_same _ _ hw
  · exact read_write_other _ _ ‹_›

@[simp] theorem setPix_x (idx : BitVec 7) (rgb : Rgb) (c : Canvas) : (c.setPix idx rgb).x = c.x := by
  simp [Canvas.setPix]
@[simp] theorem setPix_draws (idx : BitVec 7) (rgb : Rgb) (c : Canvas) : (c.setPix idx rgb).draws = c.draws := by
  simp [Canvas.setPix]
@[simp] theorem setPix_drawPos (idx : BitVec 7) (rgb : Rgb) (c : Canvas) :
    (c.setPix idx rgb).drawPos = c.drawPos := by simp [Canvas.setPix]
theorem setPix_diag (idx : BitVec 7) (rgb : Rgb) (c : Canvas) (h : idx.toNat < numPix) :
    (c.setPix idx rgb).diag = c.diag := updatePix_diag idx _ c h
theorem wf_setPix (idx : BitVec 7) (rgb : Rgb) (c : Canvas) (hw : c.fb.wf = true) :
    (c.setPix idx rgb).fb.wf = true := wf_updatePix idx _ c hw
theorem read_setPix (idx : BitVec 7) (rgb : Rgb) (c : Canvas) (hw : c.fb.wf = true) (h : idx.toNat < numPix)
    (a : Nat) : (c.setPix idx rgb).fb.read a = if a = idx.toNat then rgb else c.fb.read a :=
  read_updatePix idx _ c hw h a

@[simp] theorem addPix_x (idx : BitVec 7) (rgb : Rgb) (c : Canvas) : (c.addPix idx rgb).x = c.x := by
  simp [Canvas.addPix]
@[simp] theorem addPix_draws (idx : BitVec 7) (rgb : Rgb) (c : Canvas) : (c.addPix idx rgb).draws = c.draws := by
  simp [Canvas.addPix]
@[simp] theorem addPix_drawPos (idx : BitVec 7) (rgb : Rgb) (c : Canvas) :
    (c.addPix idx rgb).drawPos = c.drawPos := by simp [Canvas.addPix]
theorem addPix_diag (idx : BitVec 7) (rgb : Rgb) (c : Canvas) (h : idx.toNat < numPix) :
    (c.addPix idx rgb).diag = c.diag := updatePix_diag idx _ c h
theorem wf_addPix (idx : BitVec 7) (rgb : Rgb) (c : Canvas) (hw : c.fb.wf = true) :
    (c.addPix idx rgb).fb.wf = true := wf_updatePix idx _ c hw

/-! ### The pixel mapper -/

@[simp] theorem mapPix_A (p : BitVec 6) : (mapPix .A p).toNat = p.toNat % 48 := by
  simp only [mapPix, reducePos, ringSize, BitVec.toNat_ofNat]
  omega

@[simp] theorem mapPix_B (p : BitVec 6) : (mapPix .B p).toNat = 48 + (47 - p.toNat % 48) := by
  simp only [mapPix, reducePos, ringSize, BitVec.toNat_ofNat]
  omega

/-- The mapper's result is always a pixel (40_ring_geometry.md R111). -/
theorem mapPix_lt (ring : Ring) (p : BitVec 6) : (mapPix ring p).toNat < numPix := by
  cases ring
  · rw [mapPix_A]; simp only [numPix]; omega
  · rw [mapPix_B]; simp only [numPix]; omega

theorem posField_toNat {p : Nat} (h : p < 64) : (posField p).toNat = p := by
  simp only [posField, BitVec.toNat_ofNat]
  omega

/-! ### Writing the MS bank -/

@[simp] theorem withX_x (x : MsBank) (c : Canvas) : (c.withX x).x = x := rfl
@[simp] theorem withX_fb (x : MsBank) (c : Canvas) : (c.withX x).fb = c.fb := rfl
@[simp] theorem withX_diag (x : MsBank) (c : Canvas) : (c.withX x).diag = c.diag := rfl
@[simp] theorem withX_draws (x : MsBank) (c : Canvas) : (c.withX x).draws = c.draws := rfl
@[simp] theorem withX_drawPos (x : MsBank) (c : Canvas) : (c.withX x).drawPos = c.drawPos := rfl

/-! ### PLOT2 and ADD2 -/

@[simp] theorem plot2_x (p : Nat) (rgb : Rgb) (c : Canvas) : (c.plot2 p rgb).x = c.x := by
  simp [Canvas.plot2]
@[simp] theorem plot2_draws (p : Nat) (rgb : Rgb) (c : Canvas) : (c.plot2 p rgb).draws = c.draws := by
  simp [Canvas.plot2]
@[simp] theorem plot2_drawPos (p : Nat) (rgb : Rgb) (c : Canvas) : (c.plot2 p rgb).drawPos = c.drawPos := by
  simp [Canvas.plot2]
@[simp] theorem plot2_diag (p : Nat) (rgb : Rgb) (c : Canvas) : (c.plot2 p rgb).diag = c.diag := by
  rw [Canvas.plot2, setPix_diag _ _ _ (mapPix_lt _ _), setPix_diag _ _ _ (mapPix_lt _ _)]
theorem wf_plot2 (p : Nat) (rgb : Rgb) (c : Canvas) (hw : c.fb.wf = true) : (c.plot2 p rgb).fb.wf = true :=
  wf_setPix _ _ _ (wf_setPix _ _ _ hw)

/-- PLOT2 at a logical position writes exactly the indices `p` and `95 - p` (40_ring_geometry.md R117). -/
theorem read_plot2 {p : Nat} (rgb : Rgb) (c : Canvas) (hw : c.fb.wf = true) (hp : p < 48) (a : Nat) :
    (c.plot2 p rgb).fb.read a = if a = p ∨ a = 95 - p then rgb else c.fb.read a := by
  rw [Canvas.plot2, read_setPix _ _ _ (wf_setPix _ _ _ hw) (mapPix_lt _ _),
    read_setPix _ _ _ hw (mapPix_lt _ _), mapPix_A, mapPix_B, posField_toNat (by omega)]
  have h1 : p % 48 = p := by omega
  have h2 : 48 + (47 - p % 48) = 95 - p := by omega
  rw [h2, h1]
  by_cases ha : a = 95 - p <;> by_cases hb : a = p <;> simp [ha, hb]

@[simp] theorem add2_x (p : Nat) (rgb : Rgb) (c : Canvas) : (c.add2 p rgb).x = c.x := by
  simp [Canvas.add2]
@[simp] theorem add2_draws (p : Nat) (rgb : Rgb) (c : Canvas) : (c.add2 p rgb).draws = c.draws := by
  simp [Canvas.add2]
@[simp] theorem add2_drawPos (p : Nat) (rgb : Rgb) (c : Canvas) : (c.add2 p rgb).drawPos = c.drawPos := by
  simp [Canvas.add2]
@[simp] theorem add2_diag (p : Nat) (rgb : Rgb) (c : Canvas) : (c.add2 p rgb).diag = c.diag := by
  rw [Canvas.add2, addPix_diag _ _ _ (mapPix_lt _ _), addPix_diag _ _ _ (mapPix_lt _ _)]
theorem wf_add2 (p : Nat) (rgb : Rgb) (c : Canvas) (hw : c.fb.wf = true) : (c.add2 p rgb).fb.wf = true :=
  wf_addPix _ _ _ (wf_addPix _ _ _ hw)

/-! ### Loops -/

@[simp] theorem loop_zero (body : Nat → Canvas → Canvas) (c : Canvas) : loop 0 body c = c := rfl

theorem loop_succ (n : Nat) (body : Nat → Canvas → Canvas) (c : Canvas) :
    loop (n + 1) body c = body n (loop n body c) := by
  simp [loop, List.range_succ]

/-- A fact that holds before a loop and that each round keeps holds after it, round by round. -/
theorem loop_induct {P : Nat → Canvas → Prop} {n : Nat} {body : Nat → Canvas → Canvas} {c : Canvas}
    (h0 : P 0 c) (hs : ∀ p c', p < n → P p c' → P (p + 1) (body p c')) : P n (loop n body c) := by
  induction n with
  | zero => exact h0
  | succ n ih =>
    rw [loop_succ]
    exact hs n _ (by omega) (ih fun p c' hp => hs p c' (by omega))

/-- A fact every round keeps is kept by the loop. -/
theorem loop_keeps {P : Canvas → Prop} {n : Nat} {body : Nat → Canvas → Canvas} {c : Canvas}
    (h0 : P c) (hs : ∀ p c', P c' → P (body p c')) : P (loop n body c) :=
  loop_induct (P := fun _ => P) h0 fun p c' _ => hs p c'

/-! ### Draws -/

@[simp] theorem draw16_x (c : Canvas) : c.draw16.2.x = c.x := rfl
@[simp] theorem draw16_fb (c : Canvas) : c.draw16.2.fb = c.fb := rfl
@[simp] theorem draw16_diag (c : Canvas) : c.draw16.2.diag = c.diag := rfl
@[simp] theorem draw16_draws (c : Canvas) : c.draw16.2.draws = c.draws.tail := rfl
@[simp] theorem draw16_drawPos (c : Canvas) : c.draw16.2.drawPos = c.drawPos + 1 := rfl
@[simp] theorem rand8_x (c : Canvas) : c.rand8.2.x = c.x := rfl
@[simp] theorem rand8_fb (c : Canvas) : c.rand8.2.fb = c.fb := rfl
@[simp] theorem rand8_diag (c : Canvas) : c.rand8.2.diag = c.diag := rfl
@[simp] theorem rand8_draws (c : Canvas) : c.rand8.2.draws = c.draws.tail := rfl
@[simp] theorem rand8_drawPos (c : Canvas) : c.rand8.2.drawPos = c.drawPos + 1 := rfl
@[simp] theorem randN_x (n : Byte) (c : Canvas) : (c.randN n).2.x = c.x := rfl
@[simp] theorem randN_fb (n : Byte) (c : Canvas) : (c.randN n).2.fb = c.fb := rfl
@[simp] theorem randN_diag (n : Byte) (c : Canvas) : (c.randN n).2.diag = c.diag := rfl
@[simp] theorem randN_draws (n : Byte) (c : Canvas) : (c.randN n).2.draws = c.draws.tail := rfl
@[simp] theorem randN_drawPos (n : Byte) (c : Canvas) : (c.randN n).2.drawPos = c.drawPos + 1 := rfl

/-- RANDN's result is below `n` (42_oscillators.md R162). -/
theorem randN_lt (n : Byte) (c : Canvas) (hn : n ≠ 0) : (c.randN n).1.toNat < n.toNat := by
  have hpos : 0 < n.toNat := by
    rcases Nat.eq_zero_or_pos n.toNat with h | h
    · exact absurd (BitVec.eq_of_toNat_eq (by simpa using h)) hn
    · exact h
  have hd := c.draw16.1.isLt
  have hlt : c.draw16.1.toNat * n.toNat / 65536 < n.toNat := by
    rw [Nat.div_lt_iff_lt_mul (by decide), Nat.mul_comm n.toNat]
    exact Nat.mul_lt_mul_of_pos_right hd hpos
  simp only [Canvas.randN, BitVec.toNat_ofNat]
  rw [Nat.mod_eq_of_lt (by have := n.isLt; omega)]
  exact hlt

end Sys2Proof.Machine
end

