-- ==== Sys2Proof/Laws/State.lean ====
section
/-! SUPPORT. One lemma per field per named update of the state, true by rfl: what each update writes and what
it leaves as it was. -/

namespace Sys2Proof.Machine

/-! ### `State.raise` -/

@[simp] theorem State.raise_cfg (e : Event) (s : State) : (s.raise e).cfg = s.cfg := rfl
@[simp] theorem State.raise_mode (e : Event) (s : State) : (s.raise e).mode = s.mode := rfl
@[simp] theorem State.raise_bright (e : Event) (s : State) : (s.raise e).bright = s.bright := rfl
@[simp] theorem State.raise_sMode (e : Event) (s : State) : (s.raise e).sMode = s.sMode := rfl
@[simp] theorem State.raise_sBright (e : Event) (s : State) : (s.raise e).sBright = s.sBright := rfl
@[simp] theorem State.raise_lastMode (e : Event) (s : State) : (s.raise e).lastMode = s.lastMode := rfl
@[simp] theorem State.raise_x (e : Event) (s : State) : (s.raise e).x = s.x := rfl
@[simp] theorem State.raise_fb (e : Event) (s : State) : (s.raise e).fb = s.fb := rfl
@[simp] theorem State.raise_seq (e : Event) (s : State) : (s.raise e).seq = s.seq := rfl
@[simp] theorem State.raise_delay (e : Event) (s : State) : (s.raise e).delay = s.delay := rfl
@[simp] theorem State.raise_diag (e : Event) (s : State) : (s.raise e).diag = setEvent s.diag e := rfl
@[simp] theorem State.raise_rsp (e : Event) (s : State) : (s.raise e).rsp = s.rsp := rfl
@[simp] theorem State.raise_sRes (e : Event) (s : State) : (s.raise e).sRes = s.sRes := rfl
@[simp] theorem State.raise_frameDelay (e : Event) (s : State) : (s.raise e).frameDelay = s.frameDelay := rfl
@[simp] theorem State.raise_outBright (e : Event) (s : State) : (s.raise e).outBright = s.outBright := rfl
@[simp] theorem State.raise_handoff (e : Event) (s : State) : (s.raise e).handoff = s.handoff := rfl
@[simp] theorem State.raise_outLog (e : Event) (s : State) : (s.raise e).outLog = s.outLog := rfl
@[simp] theorem State.raise_renderLeft (e : Event) (s : State) : (s.raise e).renderLeft = s.renderLeft := rfl
@[simp] theorem State.raise_issuer (e : Event) (s : State) : (s.raise e).issuer = s.issuer := rfl
@[simp] theorem State.raise_agenda (e : Event) (s : State) : (s.raise e).agenda = s.agenda := rfl
@[simp] theorem State.raise_inputs (e : Event) (s : State) : (s.raise e).inputs = s.inputs := rfl
@[simp] theorem State.raise_draws (e : Event) (s : State) : (s.raise e).draws = s.draws := rfl
@[simp] theorem State.raise_drawPos (e : Event) (s : State) : (s.raise e).drawPos = s.drawPos := rfl
@[simp] theorem State.raise_clockDraws (e : Event) (s : State) : (s.raise e).clockDraws = s.clockDraws := rfl
@[simp] theorem State.raise_consumer (e : Event) (s : State) : (s.raise e).consumer = s.consumer := rfl
@[simp] theorem State.raise_renderLats (e : Event) (s : State) : (s.raise e).renderLats = s.renderLats := rfl

/-! ### `State.withCanvas` -/

@[simp] theorem State.withCanvas_cfg (c : Canvas) (s : State) : (s.withCanvas c).cfg = s.cfg := rfl
@[simp] theorem State.withCanvas_mode (c : Canvas) (s : State) : (s.withCanvas c).mode = s.mode := rfl
@[simp] theorem State.withCanvas_bright (c : Canvas) (s : State) : (s.withCanvas c).bright = s.bright := rfl
@[simp] theorem State.withCanvas_sMode (c : Canvas) (s : State) : (s.withCanvas c).sMode = s.sMode := rfl
@[simp] theorem State.withCanvas_sBright (c : Canvas) (s : State) : (s.withCanvas c).sBright = s.sBright := rfl
@[simp] theorem State.withCanvas_lastMode (c : Canvas) (s : State) : (s.withCanvas c).lastMode = s.lastMode := rfl
@[simp] theorem State.withCanvas_x (c : Canvas) (s : State) : (s.withCanvas c).x = c.x := rfl
@[simp] theorem State.withCanvas_fb (c : Canvas) (s : State) : (s.withCanvas c).fb = c.fb := rfl
@[simp] theorem State.withCanvas_seq (c : Canvas) (s : State) : (s.withCanvas c).seq = s.seq := rfl
@[simp] theorem State.withCanvas_delay (c : Canvas) (s : State) : (s.withCanvas c).delay = s.delay := rfl
@[simp] theorem State.withCanvas_diag (c : Canvas) (s : State) : (s.withCanvas c).diag = c.diag := rfl
@[simp] theorem State.withCanvas_rsp (c : Canvas) (s : State) : (s.withCanvas c).rsp = s.rsp := rfl
@[simp] theorem State.withCanvas_sRes (c : Canvas) (s : State) : (s.withCanvas c).sRes = s.sRes := rfl
@[simp] theorem State.withCanvas_frameDelay (c : Canvas) (s : State) : (s.withCanvas c).frameDelay = s.frameDelay := rfl
@[simp] theorem State.withCanvas_outBright (c : Canvas) (s : State) : (s.withCanvas c).outBright = s.outBright := rfl
@[simp] theorem State.withCanvas_handoff (c : Canvas) (s : State) : (s.withCanvas c).handoff = s.handoff := rfl
@[simp] theorem State.withCanvas_outLog (c : Canvas) (s : State) : (s.withCanvas c).outLog = s.outLog := rfl
@[simp] theorem State.withCanvas_renderLeft (c : Canvas) (s : State) : (s.withCanvas c).renderLeft = s.renderLeft := rfl
@[simp] theorem State.withCanvas_issuer (c : Canvas) (s : State) : (s.withCanvas c).issuer = s.issuer := rfl
@[simp] theorem State.withCanvas_agenda (c : Canvas) (s : State) : (s.withCanvas c).agenda = s.agenda := rfl
@[simp] theorem State.withCanvas_inputs (c : Canvas) (s : State) : (s.withCanvas c).inputs = s.inputs := rfl
@[simp] theorem State.withCanvas_draws (c : Canvas) (s : State) : (s.withCanvas c).draws = c.draws := rfl
@[simp] theorem State.withCanvas_drawPos (c : Canvas) (s : State) : (s.withCanvas c).drawPos = c.drawPos := rfl
@[simp] theorem State.withCanvas_clockDraws (c : Canvas) (s : State) : (s.withCanvas c).clockDraws = s.clockDraws := rfl
@[simp] theorem State.withCanvas_consumer (c : Canvas) (s : State) : (s.withCanvas c).consumer = s.consumer := rfl
@[simp] theorem State.withCanvas_renderLats (c : Canvas) (s : State) : (s.withCanvas c).renderLats = s.renderLats := rfl

/-! ### `State.respond` -/

@[simp] theorem State.respond_cfg (r : RspWord) (s : State) : (s.respond r).cfg = s.cfg := rfl
@[simp] theorem State.respond_mode (r : RspWord) (s : State) : (s.respond r).mode = s.mode := rfl
@[simp] theorem State.respond_bright (r : RspWord) (s : State) : (s.respond r).bright = s.bright := rfl
@[simp] theorem State.respond_sMode (r : RspWord) (s : State) : (s.respond r).sMode = s.sMode := rfl
@[simp] theorem State.respond_sBright (r : RspWord) (s : State) : (s.respond r).sBright = s.sBright := rfl
@[simp] theorem State.respond_lastMode (r : RspWord) (s : State) : (s.respond r).lastMode = s.lastMode := rfl
@[simp] theorem State.respond_x (r : RspWord) (s : State) : (s.respond r).x = s.x := rfl
@[simp] theorem State.respond_fb (r : RspWord) (s : State) : (s.respond r).fb = s.fb := rfl
@[simp] theorem State.respond_seq (r : RspWord) (s : State) : (s.respond r).seq = s.seq := rfl
@[simp] theorem State.respond_delay (r : RspWord) (s : State) : (s.respond r).delay = s.delay := rfl
@[simp] theorem State.respond_diag (r : RspWord) (s : State) : (s.respond r).diag = s.diag := rfl
@[simp] theorem State.respond_rsp (r : RspWord) (s : State) : (s.respond r).rsp = (match s.issuer with | .H => some r | .B => s.rsp | .S => s.rsp) := rfl
@[simp] theorem State.respond_sRes (r : RspWord) (s : State) : (s.respond r).sRes = (match s.issuer with | .H => s.sRes | .B => s.sRes | .S => some r) := rfl
@[simp] theorem State.respond_frameDelay (r : RspWord) (s : State) : (s.respond r).frameDelay = s.frameDelay := rfl
@[simp] theorem State.respond_outBright (r : RspWord) (s : State) : (s.respond r).outBright = s.outBright := rfl
@[simp] theorem State.respond_handoff (r : RspWord) (s : State) : (s.respond r).handoff = s.handoff := rfl
@[simp] theorem State.respond_outLog (r : RspWord) (s : State) : (s.respond r).outLog = s.outLog := rfl
@[simp] theorem State.respond_renderLeft (r : RspWord) (s : State) : (s.respond r).renderLeft = s.renderLeft := rfl
@[simp] theorem State.respond_issuer (r : RspWord) (s : State) : (s.respond r).issuer = s.issuer := rfl
@[simp] theorem State.respond_agenda (r : RspWord) (s : State) : (s.respond r).agenda = s.agenda := rfl
@[simp] theorem State.respond_inputs (r : RspWord) (s : State) : (s.respond r).inputs = s.inputs := rfl
@[simp] theorem State.respond_draws (r : RspWord) (s : State) : (s.respond r).draws = s.draws := rfl
@[simp] theorem State.respond_drawPos (r : RspWord) (s : State) : (s.respond r).drawPos = s.drawPos := rfl
@[simp] theorem State.respond_clockDraws (r : RspWord) (s : State) : (s.respond r).clockDraws = s.clockDraws := rfl
@[simp] theorem State.respond_consumer (r : RspWord) (s : State) : (s.respond r).consumer = s.consumer := rfl
@[simp] theorem State.respond_renderLats (r : RspWord) (s : State) : (s.respond r).renderLats = s.renderLats := rfl

/-! ### `State.accept` -/

@[simp] theorem State.accept_cfg (iss : Issuer) (s : State) : (s.accept iss).cfg = s.cfg := rfl
@[simp] theorem State.accept_mode (iss : Issuer) (s : State) : (s.accept iss).mode = s.mode := rfl
@[simp] theorem State.accept_bright (iss : Issuer) (s : State) : (s.accept iss).bright = s.bright := rfl
@[simp] theorem State.accept_sMode (iss : Issuer) (s : State) : (s.accept iss).sMode = s.sMode := rfl
@[simp] theorem State.accept_sBright (iss : Issuer) (s : State) : (s.accept iss).sBright = s.sBright := rfl
@[simp] theorem State.accept_lastMode (iss : Issuer) (s : State) : (s.accept iss).lastMode = s.lastMode := rfl
@[simp] theorem State.accept_x (iss : Issuer) (s : State) : (s.accept iss).x = s.x := rfl
@[simp] theorem State.accept_fb (iss : Issuer) (s : State) : (s.accept iss).fb = s.fb := rfl
@[simp] theorem State.accept_seq (iss : Issuer) (s : State) : (s.accept iss).seq = s.seq := rfl
@[simp] theorem State.accept_delay (iss : Issuer) (s : State) : (s.accept iss).delay = s.delay := rfl
@[simp] theorem State.accept_diag (iss : Issuer) (s : State) : (s.accept iss).diag = s.diag := rfl
@[simp] theorem State.accept_rsp (iss : Issuer) (s : State) : (s.accept iss).rsp = (match iss with | .H => none | .B => s.rsp | .S => s.rsp) := rfl
@[simp] theorem State.accept_sRes (iss : Issuer) (s : State) : (s.accept iss).sRes = (match iss with | .H => s.sRes | .B => s.sRes | .S => none) := rfl
@[simp] theorem State.accept_frameDelay (iss : Issuer) (s : State) : (s.accept iss).frameDelay = s.frameDelay := rfl
@[simp] theorem State.accept_outBright (iss : Issuer) (s : State) : (s.accept iss).outBright = s.outBright := rfl
@[simp] theorem State.accept_handoff (iss : Issuer) (s : State) : (s.accept iss).handoff = s.handoff := rfl
@[simp] theorem State.accept_outLog (iss : Issuer) (s : State) : (s.accept iss).outLog = s.outLog := rfl
@[simp] theorem State.accept_renderLeft (iss : Issuer) (s : State) : (s.accept iss).renderLeft = s.renderLeft := rfl
@[simp] theorem State.accept_issuer (iss : Issuer) (s : State) : (s.accept iss).issuer = iss := rfl
@[simp] theorem State.accept_agenda (iss : Issuer) (s : State) : (s.accept iss).agenda = s.agenda := rfl
@[simp] theorem State.accept_inputs (iss : Issuer) (s : State) : (s.accept iss).inputs = s.inputs := rfl
@[simp] theorem State.accept_draws (iss : Issuer) (s : State) : (s.accept iss).draws = s.draws := rfl
@[simp] theorem State.accept_drawPos (iss : Issuer) (s : State) : (s.accept iss).drawPos = s.drawPos := rfl
@[simp] theorem State.accept_clockDraws (iss : Issuer) (s : State) : (s.accept iss).clockDraws = s.clockDraws := rfl
@[simp] theorem State.accept_consumer (iss : Issuer) (s : State) : (s.accept iss).consumer = s.consumer := rfl
@[simp] theorem State.accept_renderLats (iss : Issuer) (s : State) : (s.accept iss).renderLats = s.renderLats := rfl

/-! ### `State.startPresent` -/

@[simp] theorem State.startPresent_cfg (b : Byte) (s : State) : (s.startPresent b).cfg = s.cfg := rfl
@[simp] theorem State.startPresent_mode (b : Byte) (s : State) : (s.startPresent b).mode = s.mode := rfl
@[simp] theorem State.startPresent_bright (b : Byte) (s : State) : (s.startPresent b).bright = s.bright := rfl
@[simp] theorem State.startPresent_sMode (b : Byte) (s : State) : (s.startPresent b).sMode = s.sMode := rfl
@[simp] theorem State.startPresent_sBright (b : Byte) (s : State) : (s.startPresent b).sBright = s.sBright := rfl
@[simp] theorem State.startPresent_lastMode (b : Byte) (s : State) : (s.startPresent b).lastMode = s.lastMode := rfl
@[simp] theorem State.startPresent_x (b : Byte) (s : State) : (s.startPresent b).x = s.x := rfl
@[simp] theorem State.startPresent_fb (b : Byte) (s : State) : (s.startPresent b).fb = s.fb := rfl
@[simp] theorem State.startPresent_seq (b : Byte) (s : State) : (s.startPresent b).seq = .present := rfl
@[simp] theorem State.startPresent_delay (b : Byte) (s : State) : (s.startPresent b).delay = s.delay := rfl
@[simp] theorem State.startPresent_diag (b : Byte) (s : State) : (s.startPresent b).diag = s.diag := rfl
@[simp] theorem State.startPresent_rsp (b : Byte) (s : State) : (s.startPresent b).rsp = s.rsp := rfl
@[simp] theorem State.startPresent_sRes (b : Byte) (s : State) : (s.startPresent b).sRes = s.sRes := rfl
@[simp] theorem State.startPresent_frameDelay (b : Byte) (s : State) : (s.startPresent b).frameDelay = s.frameDelay := rfl
@[simp] theorem State.startPresent_outBright (b : Byte) (s : State) : (s.startPresent b).outBright = b := rfl
@[simp] theorem State.startPresent_handoff (b : Byte) (s : State) : (s.startPresent b).handoff = [] := rfl
@[simp] theorem State.startPresent_outLog (b : Byte) (s : State) : (s.startPresent b).outLog = s.outLog := rfl
@[simp] theorem State.startPresent_renderLeft (b : Byte) (s : State) : (s.startPresent b).renderLeft = s.renderLeft := rfl
@[simp] theorem State.startPresent_issuer (b : Byte) (s : State) : (s.startPresent b).issuer = s.issuer := rfl
@[simp] theorem State.startPresent_agenda (b : Byte) (s : State) : (s.startPresent b).agenda = s.agenda := rfl
@[simp] theorem State.startPresent_inputs (b : Byte) (s : State) : (s.startPresent b).inputs = s.inputs := rfl
@[simp] theorem State.startPresent_draws (b : Byte) (s : State) : (s.startPresent b).draws = s.draws := rfl
@[simp] theorem State.startPresent_drawPos (b : Byte) (s : State) : (s.startPresent b).drawPos = s.drawPos := rfl
@[simp] theorem State.startPresent_clockDraws (b : Byte) (s : State) : (s.startPresent b).clockDraws = s.clockDraws := rfl
@[simp] theorem State.startPresent_consumer (b : Byte) (s : State) : (s.startPresent b).consumer = s.consumer := rfl
@[simp] theorem State.startPresent_renderLats (b : Byte) (s : State) : (s.startPresent b).renderLats = s.renderLats := rfl

/-! ### `State.finishFrame` -/

@[simp] theorem State.finishFrame_cfg (s : State) : (s.finishFrame).cfg = s.cfg := rfl
@[simp] theorem State.finishFrame_mode (s : State) : (s.finishFrame).mode = s.mode := rfl
@[simp] theorem State.finishFrame_bright (s : State) : (s.finishFrame).bright = s.bright := rfl
@[simp] theorem State.finishFrame_sMode (s : State) : (s.finishFrame).sMode = s.sMode := rfl
@[simp] theorem State.finishFrame_sBright (s : State) : (s.finishFrame).sBright = s.sBright := rfl
@[simp] theorem State.finishFrame_lastMode (s : State) : (s.finishFrame).lastMode = s.lastMode := rfl
@[simp] theorem State.finishFrame_x (s : State) : (s.finishFrame).x = s.x := rfl
@[simp] theorem State.finishFrame_fb (s : State) : (s.finishFrame).fb = s.fb := rfl
@[simp] theorem State.finishFrame_seq (s : State) : (s.finishFrame).seq = .wait := rfl
@[simp] theorem State.finishFrame_delay (s : State) : (s.finishFrame).delay = s.frameDelay.getD s.delay := rfl
@[simp] theorem State.finishFrame_diag (s : State) : (s.finishFrame).diag = s.diag := rfl
@[simp] theorem State.finishFrame_rsp (s : State) : (s.finishFrame).rsp = s.rsp := rfl
@[simp] theorem State.finishFrame_sRes (s : State) : (s.finishFrame).sRes = s.sRes := rfl
@[simp] theorem State.finishFrame_frameDelay (s : State) : (s.finishFrame).frameDelay = none := rfl
@[simp] theorem State.finishFrame_outBright (s : State) : (s.finishFrame).outBright = s.outBright := rfl
@[simp] theorem State.finishFrame_handoff (s : State) : (s.finishFrame).handoff = [] := rfl
@[simp] theorem State.finishFrame_outLog (s : State) : (s.finishFrame).outLog = s.outLog ++ [⟨s.handoff, s.frameDelay.getD s.delay⟩] := rfl
@[simp] theorem State.finishFrame_renderLeft (s : State) : (s.finishFrame).renderLeft = s.renderLeft := rfl
@[simp] theorem State.finishFrame_issuer (s : State) : (s.finishFrame).issuer = s.issuer := rfl
@[simp] theorem State.finishFrame_agenda (s : State) : (s.finishFrame).agenda = s.agenda := rfl
@[simp] theorem State.finishFrame_inputs (s : State) : (s.finishFrame).inputs = s.inputs := rfl
@[simp] theorem State.finishFrame_draws (s : State) : (s.finishFrame).draws = s.draws := rfl
@[simp] theorem State.finishFrame_drawPos (s : State) : (s.finishFrame).drawPos = s.drawPos := rfl
@[simp] theorem State.finishFrame_clockDraws (s : State) : (s.finishFrame).clockDraws = s.clockDraws := rfl
@[simp] theorem State.finishFrame_consumer (s : State) : (s.finishFrame).consumer = s.consumer := rfl
@[simp] theorem State.finishFrame_renderLats (s : State) : (s.finishFrame).renderLats = s.renderLats := rfl

/-! ### `State.sampleConfig` -/

@[simp] theorem State.sampleConfig_cfg (s : State) : (s.sampleConfig).cfg = s.cfg := rfl
@[simp] theorem State.sampleConfig_mode (s : State) : (s.sampleConfig).mode = s.mode := rfl
@[simp] theorem State.sampleConfig_bright (s : State) : (s.sampleConfig).bright = s.bright := rfl
@[simp] theorem State.sampleConfig_sMode (s : State) : (s.sampleConfig).sMode = s.mode := rfl
@[simp] theorem State.sampleConfig_sBright (s : State) : (s.sampleConfig).sBright = s.bright := rfl
@[simp] theorem State.sampleConfig_lastMode (s : State) : (s.sampleConfig).lastMode = s.lastMode := rfl
@[simp] theorem State.sampleConfig_x (s : State) : (s.sampleConfig).x = s.x := rfl
@[simp] theorem State.sampleConfig_fb (s : State) : (s.sampleConfig).fb = s.fb := rfl
@[simp] theorem State.sampleConfig_seq (s : State) : (s.sampleConfig).seq = .render := rfl
@[simp] theorem State.sampleConfig_delay (s : State) : (s.sampleConfig).delay = s.delay := rfl
@[simp] theorem State.sampleConfig_diag (s : State) : (s.sampleConfig).diag = s.diag := rfl
@[simp] theorem State.sampleConfig_rsp (s : State) : (s.sampleConfig).rsp = s.rsp := rfl
@[simp] theorem State.sampleConfig_sRes (s : State) : (s.sampleConfig).sRes = s.sRes := rfl
@[simp] theorem State.sampleConfig_frameDelay (s : State) : (s.sampleConfig).frameDelay = s.frameDelay := rfl
@[simp] theorem State.sampleConfig_outBright (s : State) : (s.sampleConfig).outBright = s.outBright := rfl
@[simp] theorem State.sampleConfig_handoff (s : State) : (s.sampleConfig).handoff = s.handoff := rfl
@[simp] theorem State.sampleConfig_outLog (s : State) : (s.sampleConfig).outLog = s.outLog := rfl
@[simp] theorem State.sampleConfig_renderLeft (s : State) : (s.sampleConfig).renderLeft = s.renderLats.headD 0 := rfl
@[simp] theorem State.sampleConfig_issuer (s : State) : (s.sampleConfig).issuer = s.issuer := rfl
@[simp] theorem State.sampleConfig_agenda (s : State) : (s.sampleConfig).agenda = s.agenda := rfl
@[simp] theorem State.sampleConfig_inputs (s : State) : (s.sampleConfig).inputs = s.inputs := rfl
@[simp] theorem State.sampleConfig_draws (s : State) : (s.sampleConfig).draws = s.draws := rfl
@[simp] theorem State.sampleConfig_drawPos (s : State) : (s.sampleConfig).drawPos = s.drawPos := rfl
@[simp] theorem State.sampleConfig_clockDraws (s : State) : (s.sampleConfig).clockDraws = s.clockDraws := rfl
@[simp] theorem State.sampleConfig_consumer (s : State) : (s.sampleConfig).consumer = s.consumer := rfl
@[simp] theorem State.sampleConfig_renderLats (s : State) : (s.sampleConfig).renderLats = s.renderLats.tail := rfl

/-! ### `State.openClock` -/

@[simp] theorem State.openClock_cfg (s : State) : (s.openClock).cfg = s.cfg := rfl
@[simp] theorem State.openClock_mode (s : State) : (s.openClock).mode = s.mode := rfl
@[simp] theorem State.openClock_bright (s : State) : (s.openClock).bright = s.bright := rfl
@[simp] theorem State.openClock_sMode (s : State) : (s.openClock).sMode = s.sMode := rfl
@[simp] theorem State.openClock_sBright (s : State) : (s.openClock).sBright = s.sBright := rfl
@[simp] theorem State.openClock_lastMode (s : State) : (s.openClock).lastMode = s.lastMode := rfl
@[simp] theorem State.openClock_x (s : State) : (s.openClock).x = s.x := rfl
@[simp] theorem State.openClock_fb (s : State) : (s.openClock).fb = s.fb := rfl
@[simp] theorem State.openClock_seq (s : State) : (s.openClock).seq = s.seq := rfl
@[simp] theorem State.openClock_delay (s : State) : (s.openClock).delay = s.delay := rfl
@[simp] theorem State.openClock_diag (s : State) : (s.openClock).diag = s.diag := rfl
@[simp] theorem State.openClock_rsp (s : State) : (s.openClock).rsp = none := rfl
@[simp] theorem State.openClock_sRes (s : State) : (s.openClock).sRes = none := rfl
@[simp] theorem State.openClock_frameDelay (s : State) : (s.openClock).frameDelay = s.frameDelay := rfl
@[simp] theorem State.openClock_outBright (s : State) : (s.openClock).outBright = s.outBright := rfl
@[simp] theorem State.openClock_handoff (s : State) : (s.openClock).handoff = s.handoff := rfl
@[simp] theorem State.openClock_outLog (s : State) : (s.openClock).outLog = s.outLog := rfl
@[simp] theorem State.openClock_renderLeft (s : State) : (s.openClock).renderLeft = s.renderLeft := rfl
@[simp] theorem State.openClock_issuer (s : State) : (s.openClock).issuer = s.issuer := rfl
@[simp] theorem State.openClock_agenda (s : State) : (s.openClock).agenda = (s.inputs.headD quietClock).actions := rfl
@[simp] theorem State.openClock_inputs (s : State) : (s.openClock).inputs = s.inputs.tail := rfl
@[simp] theorem State.openClock_draws (s : State) : (s.openClock).draws = s.draws := rfl
@[simp] theorem State.openClock_drawPos (s : State) : (s.openClock).drawPos = s.drawPos := rfl
@[simp] theorem State.openClock_clockDraws (s : State) : (s.openClock).clockDraws = s.drawPos := rfl
@[simp] theorem State.openClock_consumer (s : State) : (s.openClock).consumer = (s.inputs.headD quietClock).outReady.getD s.consumer := rfl
@[simp] theorem State.openClock_renderLats (s : State) : (s.openClock).renderLats = s.renderLats := rfl

/-! ### `State.renderFrame` -/

@[simp] theorem State.renderFrame_cfg (s : State) : (s.renderFrame).cfg = s.cfg := rfl
@[simp] theorem State.renderFrame_mode (s : State) : (s.renderFrame).mode = s.mode := rfl
@[simp] theorem State.renderFrame_bright (s : State) : (s.renderFrame).bright = s.bright := rfl
@[simp] theorem State.renderFrame_sMode (s : State) : (s.renderFrame).sMode = s.sMode := rfl
@[simp] theorem State.renderFrame_sBright (s : State) : (s.renderFrame).sBright = s.sBright := rfl
@[simp] theorem State.renderFrame_lastMode (s : State) : (s.renderFrame).lastMode = s.lastMode := rfl
@[simp] theorem State.renderFrame_x (s : State) : (s.renderFrame).x = (renderMode s.cfg s.sMode.toNat s.canvas).x := rfl
@[simp] theorem State.renderFrame_fb (s : State) : (s.renderFrame).fb = (renderMode s.cfg s.sMode.toNat s.canvas).fb := rfl
@[simp] theorem State.renderFrame_seq (s : State) : (s.renderFrame).seq = s.seq := rfl
@[simp] theorem State.renderFrame_delay (s : State) : (s.renderFrame).delay = s.delay := rfl
@[simp] theorem State.renderFrame_diag (s : State) : (s.renderFrame).diag = (renderMode s.cfg s.sMode.toNat s.canvas).diag := rfl
@[simp] theorem State.renderFrame_rsp (s : State) : (s.renderFrame).rsp = s.rsp := rfl
@[simp] theorem State.renderFrame_sRes (s : State) : (s.renderFrame).sRes = s.sRes := rfl
@[simp] theorem State.renderFrame_frameDelay (s : State) : (s.renderFrame).frameDelay = some (delayOf s.cfg s.sMode.toNat) := rfl
@[simp] theorem State.renderFrame_outBright (s : State) : (s.renderFrame).outBright = s.outBright := rfl
@[simp] theorem State.renderFrame_handoff (s : State) : (s.renderFrame).handoff = s.handoff := rfl
@[simp] theorem State.renderFrame_outLog (s : State) : (s.renderFrame).outLog = s.outLog := rfl
@[simp] theorem State.renderFrame_renderLeft (s : State) : (s.renderFrame).renderLeft = s.renderLeft := rfl
@[simp] theorem State.renderFrame_issuer (s : State) : (s.renderFrame).issuer = s.issuer := rfl
@[simp] theorem State.renderFrame_agenda (s : State) : (s.renderFrame).agenda = s.agenda := rfl
@[simp] theorem State.renderFrame_inputs (s : State) : (s.renderFrame).inputs = s.inputs := rfl
@[simp] theorem State.renderFrame_draws (s : State) : (s.renderFrame).draws = (renderMode s.cfg s.sMode.toNat s.canvas).draws := rfl
@[simp] theorem State.renderFrame_drawPos (s : State) : (s.renderFrame).drawPos = (renderMode s.cfg s.sMode.toNat s.canvas).drawPos := rfl
@[simp] theorem State.renderFrame_clockDraws (s : State) : (s.renderFrame).clockDraws = s.clockDraws := rfl
@[simp] theorem State.renderFrame_consumer (s : State) : (s.renderFrame).consumer = s.consumer := rfl
@[simp] theorem State.renderFrame_renderLats (s : State) : (s.renderFrame).renderLats = s.renderLats := rfl

/-! ### `State.hardReset` -/

@[simp] theorem State.hardReset_cfg (s : State) : (s.hardReset).cfg = s.cfg := rfl
@[simp] theorem State.hardReset_mode (s : State) : (s.hardReset).mode = State.reset.mode := rfl
@[simp] theorem State.hardReset_bright (s : State) : (s.hardReset).bright = s.cfg.initBright := rfl
@[simp] theorem State.hardReset_sMode (s : State) : (s.hardReset).sMode = State.reset.sMode := rfl
@[simp] theorem State.hardReset_sBright (s : State) : (s.hardReset).sBright = State.reset.sBright := rfl
@[simp] theorem State.hardReset_lastMode (s : State) : (s.hardReset).lastMode = State.reset.lastMode := rfl
@[simp] theorem State.hardReset_x (s : State) : (s.hardReset).x = State.reset.x := rfl
@[simp] theorem State.hardReset_fb (s : State) : (s.hardReset).fb = State.reset.fb := rfl
@[simp] theorem State.hardReset_seq (s : State) : (s.hardReset).seq = State.reset.seq := rfl
@[simp] theorem State.hardReset_delay (s : State) : (s.hardReset).delay = State.reset.delay := rfl
@[simp] theorem State.hardReset_diag (s : State) : (s.hardReset).diag = State.reset.diag := rfl
@[simp] theorem State.hardReset_rsp (s : State) : (s.hardReset).rsp = State.reset.rsp := rfl
@[simp] theorem State.hardReset_sRes (s : State) : (s.hardReset).sRes = State.reset.sRes := rfl
@[simp] theorem State.hardReset_frameDelay (s : State) : (s.hardReset).frameDelay = State.reset.frameDelay := rfl
@[simp] theorem State.hardReset_outBright (s : State) : (s.hardReset).outBright = State.reset.outBright := rfl
@[simp] theorem State.hardReset_handoff (s : State) : (s.hardReset).handoff = State.reset.handoff := rfl
@[simp] theorem State.hardReset_outLog (s : State) : (s.hardReset).outLog = State.reset.outLog := rfl
@[simp] theorem State.hardReset_renderLeft (s : State) : (s.hardReset).renderLeft = State.reset.renderLeft := rfl
@[simp] theorem State.hardReset_issuer (s : State) : (s.hardReset).issuer = State.reset.issuer := rfl
@[simp] theorem State.hardReset_agenda (s : State) : (s.hardReset).agenda = s.agenda := rfl
@[simp] theorem State.hardReset_inputs (s : State) : (s.hardReset).inputs = s.inputs := rfl
@[simp] theorem State.hardReset_draws (s : State) : (s.hardReset).draws = s.draws := rfl
@[simp] theorem State.hardReset_drawPos (s : State) : (s.hardReset).drawPos = s.drawPos := rfl
@[simp] theorem State.hardReset_clockDraws (s : State) : (s.hardReset).clockDraws = s.drawPos := rfl
@[simp] theorem State.hardReset_consumer (s : State) : (s.hardReset).consumer = s.consumer := rfl
@[simp] theorem State.hardReset_renderLats (s : State) : (s.hardReset).renderLats = s.renderLats := rfl

/-! ### The canvas -/

@[simp] theorem State.canvas_x (s : State) : s.canvas.x = s.x := rfl
@[simp] theorem State.canvas_fb (s : State) : s.canvas.fb = s.fb := rfl
@[simp] theorem State.canvas_diag (s : State) : s.canvas.diag = s.diag := rfl
@[simp] theorem State.canvas_draws (s : State) : s.canvas.draws = s.draws := rfl
@[simp] theorem State.canvas_drawPos (s : State) : s.canvas.drawPos = s.drawPos := rfl
@[simp] theorem State.withCanvas_canvas (s : State) (c : Canvas) : (s.withCanvas c).canvas = c := rfl
@[simp] theorem State.withCanvas_self (s : State) : s.withCanvas s.canvas = s := rfl
@[simp] theorem Canvas.raise_x (e : Event) (c : Canvas) : (c.raise e).x = c.x := rfl
@[simp] theorem Canvas.raise_fb (e : Event) (c : Canvas) : (c.raise e).fb = c.fb := rfl
@[simp] theorem Canvas.raise_diag (e : Event) (c : Canvas) : (c.raise e).diag = setEvent c.diag e := rfl
@[simp] theorem Canvas.raise_draws (e : Event) (c : Canvas) : (c.raise e).draws = c.draws := rfl
@[simp] theorem Canvas.raise_drawPos (e : Event) (c : Canvas) : (c.raise e).drawPos = c.drawPos := rfl

end Sys2Proof.Machine
end

