-- ==== Sys2Proof/Laws/Machine.lean ====
section
/-! SUPPORT. What each shared operation of the machine can do, said once: the issuer check, the answer of a
result, the hand-off, the phases of FRAME, a word, a step (spec/30_encoding.md R84, R87;
spec/43_frame_buffer.md R188; spec/44_mode_sequencer.md R210, R211). -/

namespace Sys2Proof.Machine

/-! ### The issuer check -/

theorem issued_of_may {op : Op} {s : State} (h : mayIssue s.issuer op = true) (effect : State) :
    issued op s effect = .next effect := if_pos h

theorem issued_of_not {op : Op} {s : State} (h : mayIssue s.issuer op = false) (effect : State) :
    issued op s effect = .next (s.raise .priv) := by simp [issued, h]

/-- The issuer check answers a next state whatever the issuer. -/
theorem issued_cases (op : Op) (s effect : State) :
    (mayIssue s.issuer op = true ∧ issued op s effect = .next effect) ∨
    (mayIssue s.issuer op = false ∧ issued op s effect = .next (s.raise .priv)) := by
  cases h : mayIssue s.issuer op
  · exact .inr ⟨rfl, issued_of_not h effect⟩
  · exact .inl ⟨rfl, issued_of_may h effect⟩

/-! ### Answering a result -/

theorem respond_H {s : State} (r : RspWord) (h : s.issuer = .H) : s.respond r = { s with rsp := some r } := by
  simp [State.respond, h]

theorem respond_S {s : State} (r : RspWord) (h : s.issuer = .S) : s.respond r = { s with sRes := some r } := by
  simp [State.respond, h]

/-! ### The hand-off -/

/-- The pixels handed over so far and the `k` next are the first `n + k`. -/
theorem handoff_append (s : State) (n k : Nat) :
    (List.range n).map s.outPixel ++ (List.range k).map (fun j => s.outPixel (n + j)) =
      (List.range (n + k)).map s.outPixel := by
  rw [List.range_add, List.map_append, List.map_map]
  rfl

/-- A hand-off the consumer takes to the end finishes the frame. -/
theorem handOver_finish (s : State) (h : s.consumer.takes (numPix - s.handoff.length) =
    numPix - s.handoff.length) :
    s.handOver = State.finishFrame { s with
      handoff := s.handoff ++ (List.range (numPix - s.handoff.length)).map
        (fun j => s.outPixel (s.handoff.length + j))
      consumer := s.consumer.after (numPix - s.handoff.length) } := by
  unfold State.handOver
  simp only [h, if_true]

/-- A hand-off the consumer holds up goes as far as it takes pixels. -/
theorem handOver_stall (s : State) (h : s.consumer.takes (numPix - s.handoff.length) ≠
    numPix - s.handoff.length) :
    s.handOver = { s with
      handoff := s.handoff ++ (List.range (s.consumer.takes (numPix - s.handoff.length))).map
        (fun j => s.outPixel (s.handoff.length + j))
      consumer := s.consumer.after (s.consumer.takes (numPix - s.handoff.length)) } := by
  unfold State.handOver
  simp only [h, if_false]

/-- A hand-off of which `k` pixels are done, with a consumer that is ready: the whole frame is logged. -/
theorem handOver_ready (s : State) (k : Nat) (hk : k ≤ numPix)
    (hh : s.handoff = (List.range k).map s.outPixel) (hc : s.consumer = .ready) :
    s.handOver = { s with
      outLog := s.outLog ++ [⟨(List.range numPix).map s.outPixel, s.frameDelay.getD s.delay⟩]
      delay := s.frameDelay.getD s.delay
      frameDelay := none
      handoff := []
      seq := .wait } := by
  have hl : s.handoff.length = k := by simp [hh]
  rw [handOver_finish s (by rw [hc]; rfl)]
  have e : s.handoff ++ (List.range (numPix - s.handoff.length)).map
      (fun j => s.outPixel (s.handoff.length + j)) = (List.range numPix).map s.outPixel := by
    rw [hl]
    nth_rewrite 1 [hh]
    rw [handoff_append, Nat.add_sub_cancel' hk]
  unfold State.finishFrame
  rw [e]
  simp [hc, Consumer.after]

/-! ### FRAME -/

theorem withCanvas_canvas (s : State) : s.withCanvas s.canvas = s := rfl

theorem canvas_withCanvas (s : State) (c : Canvas) : (s.withCanvas c).canvas = c := rfl

/-- Steps 3 to 5 of FRAME as one update: the canvas is reset when the mode changed, LASTMODE takes the sampled
mode either way (44_mode_sequencer.md R210, R212). -/
theorem resetIfChanged_eq (s : State) :
    s.resetIfChanged = { s.withCanvas
      (if s.sMode = s.lastMode then s.canvas else resetMode s.cfg s.sMode.toNat s.canvas) with
      lastMode := s.sMode } := by
  unfold State.resetIfChanged
  split
  · rename_i h
    rw [withCanvas_canvas, h]
  · rfl

/-- Step 6 of FRAME on a given canvas. -/
theorem renderFrame_eq (s : State) (c : Canvas) (last : BitVec 5) :
    State.renderFrame { s.withCanvas c with lastMode := last } =
      { s.withCanvas (renderMode s.cfg s.sMode.toNat c) with
        lastMode := last
        frameDelay := some (delayOf s.cfg s.sMode.toNat) } := rfl

/-- Steps 3 to 7 of FRAME as one update and the hand-off (44_mode_sequencer.md R210). -/
theorem completeRender_eq (s : State) (h : s.renderLeft = 0) :
    s.completeRender = State.handOver { s.withCanvas
        (renderMode s.cfg s.sMode.toNat
          (if s.sMode = s.lastMode then s.canvas else resetMode s.cfg s.sMode.toNat s.canvas)) with
      lastMode := s.sMode
      frameDelay := some (delayOf s.cfg s.sMode.toNat)
      seq := .present
      outBright := s.sBright
      handoff := [] } := by
  unfold State.completeRender
  rw [if_pos h, resetIfChanged_eq, renderFrame_eq]
  rfl

theorem completeRender_wait (s : State) (h : s.renderLeft ≠ 0) :
    s.completeRender = s := if_neg h

/-! ### Words, slots and steps -/

theorem runWord_ok {w : OpWord} {i : Instr} (h : decode w = .ok i) (iss : Issuer) (s : State) :
    s.runWord iss w = exec i (s.accept iss) := by simp [State.runWord, h]

theorem runWord_error {w : OpWord} {e : DecodeError} (h : decode w = .error e) (iss : Issuer) (s : State) :
    s.runWord iss w = .next (State.dropWord e (s.accept iss)) := by simp [State.runWord, h]

theorem runSequencer_wait {s : State} (tick : Bool) (h : s.seq = .wait) (hd : s.delay ≠ 0) :
    s.runSequencer tick = .next (s.countDown tick) := by
  simp only [State.runSequencer, h, if_neg hd]

theorem runSequencer_due {s : State} (tick : Bool) (h : s.seq = .wait) (hd : s.delay = 0) :
    s.runSequencer tick = exec .frame (s.accept .S) := by
  simp only [State.runSequencer, h, if_pos hd]

theorem runSequencer_render {s : State} (tick : Bool) (h : s.seq = .render) :
    s.runSequencer tick = .next s.renderClock := by simp [State.runSequencer, h]

theorem runSequencer_present {s : State} (tick : Bool) (h : s.seq = .present) :
    s.runSequencer tick = .next s.handOver := by simp [State.runSequencer, h]

theorem step_nil {s : State} (h : s.agenda = []) : step s = .next s.openClock := by simp [step, h]

theorem step_cons {s : State} {a : Action} {rest : List Action} (h : s.agenda = a :: rest) :
    step s = State.perform a { s with agenda := rest } := by simp [step, h]

end Sys2Proof.Machine
end

