-- ==== Sys2Proof/Laws/Modes.lean ====
section
/-! SUPPORT. What every mode procedure keeps: the canonical form of the frame buffer and DIAG
(spec/44_mode_sequencer.md R213, R218, R223). -/

namespace Sys2Proof.Machine

/-- From `c` to `d` a canonical frame buffer stayed canonical and no event was raised (R223). -/
def Kept (c d : Canvas) : Prop := (c.fb.wf = true → d.fb.wf = true) ∧ d.diag = c.diag

/-! ### The operations the modes use -/

theorem Kept.refl (c : Canvas) : Kept c c := ⟨fun h => h, rfl⟩

theorem Kept.trans {c d e : Canvas} (h : Kept c d) (h' : Kept d e) : Kept c e :=
  ⟨fun hw => h'.1 (h.1 hw), h'.2.trans h.2⟩

theorem Kept.fill {c d : Canvas} (h : Kept c d) (rgb : Rgb) : Kept c (d.fill rgb) :=
  h.trans ⟨wf_fill rgb d, fill_diag rgb d⟩

theorem Kept.fadeAll {c d : Canvas} (h : Kept c d) (k : Byte) : Kept c (d.fadeAll k) :=
  h.trans ⟨wf_fadeAll k d, fadeAll_diag k d⟩

theorem Kept.setPix {c d : Canvas} (h : Kept c d) {idx : BitVec 7} (hi : idx.toNat < numPix) (rgb : Rgb) :
    Kept c (d.setPix idx rgb) := h.trans ⟨wf_setPix idx rgb d, setPix_diag idx rgb d hi⟩

theorem Kept.plot2 {c d : Canvas} (h : Kept c d) (p : Nat) (rgb : Rgb) : Kept c (d.plot2 p rgb) :=
  h.trans ⟨wf_plot2 p rgb d, plot2_diag p rgb d⟩

theorem Kept.add2 {c d : Canvas} (h : Kept c d) (p : Nat) (rgb : Rgb) : Kept c (d.add2 p rgb) :=
  h.trans ⟨wf_add2 p rgb d, add2_diag p rgb d⟩

theorem Kept.withX {c d : Canvas} (h : Kept c d) (x : MsBank) : Kept c (d.withX x) :=
  h.trans ⟨fun hw => hw, withX_diag x d⟩

theorem Kept.rand8 {c d : Canvas} (h : Kept c d) : Kept c d.rand8.2 := h.trans ⟨fun hw => hw, rand8_diag d⟩

theorem Kept.randN {c d : Canvas} (h : Kept c d) (n : Byte) : Kept c (d.randN n).2 :=
  h.trans ⟨fun hw => hw, randN_diag n d⟩

theorem Kept.ite {c d e : Canvas} (p : Prop) [Decidable p] (hd : Kept c d) (he : Kept c e) :
    Kept c (if p then d else e) := by
  split
  · exact hd
  · exact he

theorem Kept.loop {c d : Canvas} (h : Kept c d) {n : Nat} {body : Nat → Canvas → Canvas}
    (hb : ∀ p e, p < n → Kept e (body p e)) : Kept c (loop n body d) :=
  loop_induct (P := fun _ => Kept c) h fun p e hp he => he.trans (hb p e hp)

/-! ### Each mode -/

theorem kept_rotate (n w step : Nat) (bg : Byte) (invert : Bool) (fixed : Option Rgb) (hstep : Nat)
    (c : Canvas) : Kept c (rotate n w step bg invert fixed hstep c) := by
  unfold rotate
  exact ((((Kept.refl c).fill _).ite (bg = 0) ((Kept.refl c).fadeAll bg)).loop fun p e _ =>
    ((Kept.refl e).plot2 _ _).ite _ (Kept.refl e)).withX _

theorem kept_rainbow (c : Canvas) : Kept c (rainbow c) :=
  ((Kept.refl c).withX _).loop fun _ e _ => (Kept.refl e).plot2 _ _

theorem kept_solidColour (c : Canvas) : Kept c (solidColour c) := (Kept.refl c).fill _

theorem kept_toggledFlash (c : Canvas) : Kept c (toggledFlash c) :=
  (((Kept.refl c).fill _).ite _ ((Kept.refl c).fill _)).withX _

theorem kept_sideWipe (c : Canvas) : Kept c (sideWipe c) := (((Kept.refl c).plot2 _ _).plot2 _ _).withX _

theorem kept_sinelon (cfg : Config.Params) (c : Canvas) : Kept c (sinelon cfg c) :=
  (((Kept.refl c).fadeAll _).add2 _ _).withX _

theorem kept_juggle (cfg : Config.Params) (c : Canvas) : Kept c (juggle cfg c) :=
  (((Kept.refl c).fadeAll _).loop fun _ e _ => (Kept.refl e).add2 _ _).withX _

theorem kept_comets (c : Canvas) : Kept c (comets c) :=
  ((((Kept.refl c).fadeAll _).plot2 _ _).plot2 _ _).withX _

theorem kept_runningLight (c : Canvas) : Kept c (runningLight c) :=
  (((Kept.refl c).fadeAll _).loop fun _ e _ => (Kept.refl e).plot2 _ _).withX _

theorem kept_bounce (c : Canvas) : Kept c (bounce c) := (((Kept.refl c).fadeAll _).plot2 _ _).withX _

theorem kept_dualBounce (c : Canvas) : Kept c (dualBounce c) :=
  ((((Kept.refl c).fadeAll _).plot2 _ _).plot2 _ _).withX _

theorem kept_ripple (c : Canvas) : Kept c (ripple c) :=
  ((((Kept.refl c).fadeAll _).plot2 _ _).plot2 _ _).withX _

/-- RANDN 96 names a pixel. -/
theorem randN_96_lt (c : Canvas) : ((c.randN 96).1.setWidth 7).toNat < numPix := by
  have h : (c.randN 96).1.toNat < 96 := randN_lt 96 c (by decide)
  simp only [BitVec.toNat_setWidth, numPix]
  omega

theorem kept_sparkle (c : Canvas) : Kept c (sparkle c) := by
  unfold sparkle
  exact ((((((Kept.refl c).fill _).rand8).randN 96).rand8).setPix (randN_96_lt _) _).ite _
    ((Kept.refl c).fill _).rand8

theorem Kept.fireflyRing {c d : Canvas} (h : Kept c d) (ring : Ring) : Kept c (fireflyRing ring d) := by
  unfold Machine.fireflyRing
  exact ((((h.rand8).randN 48).rand8).setPix (mapPix_lt _ _) _).ite _ h.rand8

theorem kept_firefly (c : Canvas) : Kept c (firefly c) :=
  (((Kept.refl c).fadeAll _).fireflyRing _).fireflyRing _

theorem Kept.drawOrigins {c d : Canvas} (h : Kept c d) : Kept c (drawOrigins d) := by
  unfold Machine.drawOrigins
  exact ((h.randN 48).randN 48).withX _

theorem Kept.shockFronts {c d : Canvas} (h : Kept c d) (ring : Ring) (o rad : Nat) (col : Rgb) :
    Kept c (shockFronts ring o rad col d) := (h.setPix (mapPix_lt _ _) _).setPix (mapPix_lt _ _) _

theorem kept_shockwave (c : Canvas) : Kept c (shockwave c) := by
  have h := (((Kept.refl c).fadeAll 60).shockFronts .A c.x.x0.toNat c.x.x2.toNat
    (hsvFull c.x.x3.toNat)).shockFronts .B c.x.x1.toNat c.x.x2.toNat (hsvFull c.x.x3.toNat)
  unfold shockwave
  exact ((h.withX _).drawOrigins).ite _ (h.withX _)

theorem Kept.barRing {c d : Canvas} (h : Kept c d) (ring : Ring) (n : Nat) : Kept c (barRing ring n d) :=
  h.loop fun _ e _ => ((Kept.refl e).setPix (mapPix_lt _ _) _).setPix (mapPix_lt _ _) _

theorem kept_barGraph (c : Canvas) : Kept c (barGraph c) := by
  unfold barGraph
  exact (((((Kept.refl c).fill _).randN 25).randN 25).barRing _ _).barRing _ _

theorem kept_swirl (cfg : Config.Params) (c : Canvas) : Kept c (swirl cfg c) :=
  ((Kept.refl c).loop fun i e hi =>
    (Kept.refl e).setPix (by simp only [BitVec.toNat_ofNat, numPix]; omega) _).withX _

theorem kept_breathing (c : Canvas) : Kept c (breathing c) := ((Kept.refl c).fill _).withX _

theorem kept_sineWave (cfg : Config.Params) (c : Canvas) : Kept c (sineWave cfg c) :=
  ((Kept.refl c).loop fun _ e _ => (Kept.refl e).plot2 _ _).withX _

theorem kept_flashWhite (c : Canvas) : Kept c (flashWhite c) :=
  (((Kept.refl c).fill _).ite _ ((Kept.refl c).fill _)).withX _

theorem kept_thunderPulse (c : Canvas) : Kept c (thunderPulse c) :=
  (((Kept.refl c).fill _).ite _ ((Kept.refl c).fill _)).withX _

theorem kept_bassDrop (c : Canvas) : Kept c (bassDrop c) := ((Kept.refl c).fill _).withX _

theorem kept_raveStrobe (c : Canvas) : Kept c (raveStrobe c) := by
  unfold raveStrobe
  exact (((Kept.refl c).fill _).withX _).ite _ (((Kept.refl c).fill _).withX _)

theorem kept_throttlePulse (c : Canvas) : Kept c (throttlePulse c) := ((Kept.refl c).fill _).withX _

/-! ### The table -/

/-- Every render of the default table keeps the canonical form and raises no event (R223). -/
theorem kept_standardRender (cfg : Config.Params) (m : Fin numMode) (c : Canvas) :
    Kept c (standardRender cfg m c) := by
  unfold standardRender
  split
  · exact kept_rainbow c
  · exact kept_solidColour c
  · exact kept_toggledFlash c
  · exact kept_rotate _ _ _ _ _ _ _ c
  · exact kept_sideWipe c
  · exact kept_rotate _ _ _ _ _ _ _ c
  · exact kept_rotate _ _ _ _ _ _ _ c
  · exact kept_rotate _ _ _ _ _ _ _ c
  · exact kept_sinelon cfg c
  · exact kept_juggle cfg c
  · exact kept_comets c
  · exact kept_runningLight c
  · exact kept_bounce c
  · exact kept_dualBounce c
  · exact kept_ripple c
  · exact kept_sparkle c
  · exact kept_firefly c
  · exact kept_shockwave c
  · exact kept_barGraph c
  · exact kept_swirl cfg c
  · exact kept_breathing c
  · exact kept_sineWave cfg c
  · exact kept_flashWhite c
  · exact kept_thunderPulse c
  · exact kept_bassDrop c
  · exact kept_raveStrobe c
  · exact kept_throttlePulse c

/-- Every mode part of RESET of the default table does so too. -/
theorem kept_standardReset (m : Fin numMode) (c : Canvas) : Kept c (standardReset m c) := by
  unfold standardReset
  split
  · exact (Kept.refl c).drawOrigins
  · exact Kept.refl c

/-- Every row of the default table: its own procedures, a delay in range (R222). -/
theorem modeTable_row : ∀ k : Fin numMode, modeTable[k].proc = .standard k ∧
    10 ≤ modeTable[k].delay.toNat ∧ modeTable[k].delay.toNat ≤ 100 := by decide

/-- The entry of a mode in the default table: the delay of its row, its own procedures (R222). -/
theorem modeTable_entry {m : Nat} (h : m < numMode) :
    ∃ d : Byte, modeTable[m]? = some ⟨d, .standard ⟨m, h⟩⟩ ∧ 10 ≤ d.toNat ∧ d.toNat ≤ 100 := by
  obtain ⟨hp, hd⟩ := modeTable_row ⟨m, h⟩
  refine ⟨modeTable[m].delay, ?_, hd⟩
  rw [Vector.getElem?_eq_getElem h]
  exact congrArg (fun p => some (ModeDesc.mk modeTable[m].delay p)) hp

/-- RESET of any mode of the default table keeps the canonical form and raises no event (R213). -/
theorem kept_resetMode {cfg : Config.Params} (ht : cfg.modeTable = modeTable) (m : Nat) (c : Canvas) :
    Kept c (resetMode cfg m c) := by
  have h := ((Kept.refl c).fill Rgb.black).withX ⟨0, 0, 0, 0⟩
  unfold resetMode resetPartOf
  split
  · rename_i d hd
    have hm : m < numMode := by
      rcases Nat.lt_or_ge m numMode with hm | hm
      · exact hm
      · simp [hm] at hd
    obtain ⟨b, hb, -⟩ := modeTable_entry hm
    rw [ht, hb] at hd
    cases hd
    exact h.trans (kept_standardReset _ _)
  · exact h

/-- RENDER of a known mode of the default table keeps the canonical form and raises no event (R223). -/
theorem kept_renderMode {cfg : Config.Params} (ht : cfg.modeTable = modeTable) {m : Nat} (h : m < numMode)
    (c : Canvas) : Kept c (renderMode cfg m c) := by
  obtain ⟨b, hb, -⟩ := modeTable_entry h
  unfold renderMode
  rw [ht, hb]
  exact kept_standardRender cfg _ c

end Sys2Proof.Machine
end

