-- ==== Sys2Proof/Laws/PerInstr.lean ====
section
/-! SUPPORT. The two halves of an operation word, and per instruction: its word carries its opcode
(spec/30_encoding.md R80, R85). -/

namespace Sys2Proof

/-- The opcode of a word built from an opcode and a payload. -/
@[simp] theorem opcodeOf_append (c : Byte) (p : BitVec 32) : opcodeOf (c ++ p) = c := by
  ext i hi
  have h : (c ++ p : BitVec (8 + 32)).getLsbD (32 + i) = c.getLsbD i := by
    rw [BitVec.getLsbD_append, if_neg (by omega)]
    congr 1
    omega
  rw [BitVec.getLsbD_eq_getElem hi] at h
  simpa [opcodeOf] using h

/-- The payload of a word built from an opcode and a payload. -/
@[simp] theorem payloadOf_append (c : Byte) (p : BitVec 32) : payloadOf (c ++ p) = p := by
  ext i hi
  have h : (c ++ p : BitVec (8 + 32)).getLsbD i = p.getLsbD i := by
    rw [BitVec.getLsbD_append, if_pos hi]
  rw [BitVec.getLsbD_eq_getElem hi] at h
  simpa [payloadOf] using h

/-- A word is its opcode above its payload. -/
theorem append_of_word (w : OpWord) : opcodeOf w ++ payloadOf w = w := by
  ext i hi
  simp only [opcodeOf, payloadOf, BitVec.getElem_append, BitVec.getElem_extractLsb']
  split
  · simp [BitVec.getLsbD_eq_getElem hi]
  · have h : 32 + (i - 32) = i := by omega
    simp [h, BitVec.getLsbD_eq_getElem hi]

/-- The opcode map read back: each code selects its own operation. -/
@[simp] theorem opOf_code (op : Op) : opOf op.code = some op := by cases op <;> rfl

/-- What the opcode map selects has that code. -/
theorem code_of_opOf {c : Byte} {op : Op} (h : opOf c = some op) : op.code = c := by
  apply BitVec.eq_of_toNat_eq
  unfold opOf at h
  split at h <;> first | (cases h; simp_all [Op.code]) | cases h

namespace Laws.EncodedOpcode

/-- The word of an instruction has the instruction's opcode in bits 39..32. -/
def Statement (i : Instr) : Prop := opcodeOf (encode i) = i.op.code

theorem nop : Statement .nop := opcodeOf_append _ _
theorem setmode (imm16 : BitVec 16) : Statement (.setmode imm16) := opcodeOf_append _ _
theorem adjmode (dir : Dir) : Statement (.adjmode dir) := opcodeOf_append _ _
theorem setbri (imm16 : BitVec 16) : Statement (.setbri imm16) := opcodeOf_append _ _
theorem adjbri (dir : Dir) : Statement (.adjbri dir) := opcodeOf_append _ _
theorem cfgupdM (mode16 : BitVec 16) : Statement (.cfgupdM mode16) := opcodeOf_append _ _
theorem cfgupdB (imm16 : BitVec 16) : Statement (.cfgupdB imm16) := opcodeOf_append _ _
theorem cfgupdMB (mode16 bri16 : BitVec 16) : Statement (.cfgupdMB mode16 bri16) := opcodeOf_append _ _
theorem frame : Statement .frame := opcodeOf_append _ _
theorem mappix (ring : Ring) (pos : BitVec 6) : Statement (.mappix ring pos) := opcodeOf_append _ _
theorem unmap (idx : BitVec 7) : Statement (.unmap idx) := opcodeOf_append _ _
theorem wrap48 (imm16 : BitVec 16) : Statement (.wrap48 imm16) := opcodeOf_append _ _
theorem cdist (a b : BitVec 6) : Statement (.cdist a b) := opcodeOf_append _ _
theorem cfwd (a b : BitVec 6) : Statement (.cfwd a b) := opcodeOf_append _ _
theorem gamma8 (v : Byte) : Statement (.gamma8 v) := opcodeOf_append _ _
theorem hsv2rgb (h sat v : Byte) : Statement (.hsv2rgb h sat v) := opcodeOf_append _ _
theorem huedist (start n i : Byte) : Statement (.huedist start n i) := opcodeOf_append _ _
theorem scale8 (v b : Byte) : Statement (.scale8 v b) := opcodeOf_append _ _
theorem scale48 (v : Byte) : Statement (.scale48 v) := opcodeOf_append _ _
theorem oscTri (idx scale : Byte) (phase : BitVec 16) : Statement (.oscTri idx scale phase) := opcodeOf_append _ _
theorem oscSin (idx scale : Byte) (phase : BitVec 16) : Statement (.oscSin idx scale phase) := opcodeOf_append _ _
theorem oscNoise (idx scale : Byte) (phase : BitVec 16) : Statement (.oscNoise idx scale phase) := opcodeOf_append _ _
theorem rand8 : Statement .rand8 := opcodeOf_append _ _
theorem randn (n : Byte) : Statement (.randn n) := opcodeOf_append _ _
theorem fill (rgb : Rgb) : Statement (.fill rgb) := opcodeOf_append _ _
theorem fillring (ring : Ring) (rgb : Rgb) : Statement (.fillring ring rgb) := opcodeOf_append _ _
theorem setpix (idx : BitVec 7) (rgb : Rgb) : Statement (.setpix idx rgb) := opcodeOf_append _ _
theorem getpix (idx : BitVec 7) : Statement (.getpix idx) := opcodeOf_append _ _
theorem fadeall (k : Byte) : Statement (.fadeall k) := opcodeOf_append _ _
theorem fadepix (idx : BitVec 7) (k : Byte) : Statement (.fadepix idx k) := opcodeOf_append _ _
theorem addpix (idx : BitVec 7) (rgb : Rgb) : Statement (.addpix idx rgb) := opcodeOf_append _ _
theorem present (b : Byte) : Statement (.present b) := opcodeOf_append _ _

end Laws.EncodedOpcode

end Sys2Proof
end

