-- ==== Sys2Proof/Laws/Procedures.lean ====
section
/-! SUPPORT. What a procedure of any MODE_TABLE can do, said once: the operations it issues are the operations of
the opcode table, the frame buffer keeps its canonical form, event bits stay set
(spec/44_mode_sequencer.md R214, R223; spec/10_state.md R36). -/

namespace Sys2Proof.Machine

/-! ### An operation issued inside a procedure -/

theorem canvas_respond (r : RspWord) (s : State) : (s.respond r).canvas = s.canvas := rfl

theorem canvas_raise (e : Event) (s : State) : (s.raise e).canvas = s.canvas.raise e := rfl

/-- An operation a procedure forms does to the canvas what it does as a word from the sequencer, and its result is
the one the sequencer gets, where it gets one. -/
theorem exec_formOp (w : Work) (o : ProcOp) (s : State) (h : s.issuer = .S) :
    ∃ t, exec (formOp w o) s = .next t ∧ t.canvas = (s.canvas.issue s.cfg (formOp w o)).2 ∧
      (t.sRes = some (s.canvas.issue s.cfg (formOp w o)).1 ∨ t.sRes = s.sRes) := by
  cases o <;> refine ⟨_, issued_of_may (by rw [h]; decide) _, ?_⟩ <;> simp only [formOp, Canvas.issue]
  case huedist | randn =>
    split <;> simp only [canvas_respond, canvas_raise, canvas_withCanvas, State.respond_sRes,
      State.withCanvas_issuer, State.raise_sRes, h, true_and, or_true, true_or]
  all_goals simp only [canvas_respond, canvas_withCanvas, State.respond_sRes, State.withCanvas_issuer,
    State.withCanvas_sRes, h, true_and, or_true, true_or]

/-! ### What stays -/

/-- From `c` to `d` a canonical frame buffer stayed canonical and every event bit that was set is set. -/
def Grown (c d : Canvas) : Prop := (c.fb.wf = true → d.fb.wf = true) ∧ c.diag &&& d.diag = c.diag

theorem Grown.refl (c : Canvas) : Grown c c := ⟨fun h => h, BitVec.and_self⟩

theorem Grown.trans {c d e : Canvas} (h : Grown c d) (h' : Grown d e) : Grown c e := by
  refine ⟨fun hw => h'.1 (h.1 hw), ?_⟩
  rw [← h.2, BitVec.and_assoc, h'.2]

theorem Kept.grown {c d : Canvas} (h : Kept c d) : Grown c d := ⟨h.1, by rw [h.2, BitVec.and_self]⟩

/-- Setting the bit of an event leaves the bits that were set (10_state.md R36). -/
theorem and_setEvent (d : BitVec 5) (e : Event) : d &&& setEvent d e = d := by
  unfold setEvent
  apply BitVec.eq_of_getLsbD_eq
  intro i hi
  simp only [BitVec.getLsbD_and, BitVec.getLsbD_or]
  cases d.getLsbD i <;> simp

theorem grown_raise (e : Event) (c : Canvas) : Grown c (c.raise e) := ⟨fun h => h, and_setEvent c.diag e⟩

theorem grown_updatePix (idx : BitVec 7) (f : Rgb → Rgb) (c : Canvas) : Grown c (c.updatePix idx f) := by
  by_cases h : idx.toNat < numPix
  · exact Kept.grown ⟨wf_updatePix idx f c, updatePix_diag idx f c h⟩
  · rw [Canvas.updatePix, if_neg h]
    exact grown_raise .idx c

theorem grown_getPix (idx : BitVec 7) (c : Canvas) : Grown c (c.getPix idx).2 := by
  unfold Canvas.getPix
  split
  · exact Grown.refl c
  · exact grown_raise .idx c

/-- Whatever operation a procedure issues. -/
theorem grown_issue (cfg : Config.Params) (i : Instr) (c : Canvas) : Grown c (c.issue cfg i).2 := by
  cases i with
  | huedist a n b =>
    simp only [Canvas.issue]
    split
    · exact grown_raise .illop c
    · exact Grown.refl c
  | randn n =>
    simp only [Canvas.issue]
    split
    · exact grown_raise .illop c
    · exact ((Kept.refl c).randN n).grown
  | rand8 => exact (Kept.refl c).rand8.grown
  | fill rgb => exact ((Kept.refl c).fill rgb).grown
  | fillring ring rgb => exact Kept.grown ⟨wf_fillRing ring rgb c, fillRing_diag ring rgb c⟩
  | setpix idx rgb => exact grown_updatePix idx _ c
  | getpix idx => exact grown_getPix idx c
  | fadeall k => exact ((Kept.refl c).fadeAll k).grown
  | fadepix idx k => exact grown_updatePix idx _ c
  | addpix idx rgb => exact grown_updatePix idx _ c
  | _ => exact Grown.refl c

/-- Whatever steps a procedure takes. -/
theorem grown_runProc (cfg : Config.Params) (p : Proc) (w : Work) : Grown w.canvas (runProc cfg p w).canvas := by
  induction p generalizing w with
  | done => exact Grown.refl _
  | issue v o => exact grown_issue cfg _ _
  | assign v e => exact Grown.refl _
  | write i e => exact Kept.grown ⟨fun h => h, rfl⟩
  | seq p q hp hq => exact (hp w).trans (hq _)
  | cond e p q hp hq =>
    unfold runProc
    split
    · exact hp w
    · exact hq w
  | loop v count body hb =>
    unfold runProc
    generalize List.range _ = l
    induction l generalizing w with
    | nil => exact Grown.refl _
    | cons j l ih => exact (hb (w.assign v j)).trans (ih _)

theorem grown_resetOf (cfg : Config.Params) (p : ModeProc) (c : Canvas) : Grown c (resetOf cfg p c) := by
  cases p with
  | standard m => exact (kept_standardReset m c).grown
  | custom r q => exact grown_runProc cfg r ⟨[], c⟩

theorem grown_renderOf (cfg : Config.Params) (p : ModeProc) (c : Canvas) : Grown c (renderOf cfg p c) := by
  cases p with
  | standard m => exact (kept_standardRender cfg m c).grown
  | custom r q => exact grown_runProc cfg q ⟨[], c⟩

/-- RESET of any mode of any table. -/
theorem grown_resetMode (cfg : Config.Params) (m : Nat) (c : Canvas) : Grown c (resetMode cfg m c) := by
  have h := (((Kept.refl c).fill Rgb.black).withX ⟨0, 0, 0, 0⟩).grown
  unfold resetMode resetPartOf
  split
  · exact h.trans (grown_resetOf cfg _ _)
  · exact h

/-- RENDER of any mode of any table, the fallback for an unknown mode included. -/
theorem grown_renderMode (cfg : Config.Params) (m : Nat) (c : Canvas) : Grown c (renderMode cfg m c) := by
  unfold renderMode
  split
  · exact grown_renderOf cfg _ c
  · exact (grown_raise .unkmode c).trans ((Kept.refl _).fill _).grown

end Sys2Proof.Machine
end

