-- ==== Sys2Proof/Tests/Slice0.lean ====
section
/-! SUPPORT. The model's own tests. Expected values are those of spec/30_encoding.md R85 (example words) and
spec/95_test_vectors.md, named by section; a theorem `witness_<Name>` shows a state and operands that meet the
hypotheses of the obligation of that name, each clause at a boundary value. -/

namespace Sys2Proof.Tests

open Sys2Proof.Machine

/-! ### Helpers -/

/-- The state after reset, its next word coming from `iss`, the random source answering `draws` first. -/
def small (iss : Issuer) (draws : List (BitVec 16) := []) : State :=
  { State.reset with issuer := iss, draws := draws }

/-- The state after a word from an issuer. -/
def word (iss : Issuer) (w : OpWord) (s : State) : State := s.orElse (s.runWord iss w)

/-- The response to a word of the host, after reset. -/
def response (w : OpWord) : Option Nat := (word .H w State.reset).rsp.map BitVec.toNat

/-- A state with one pixel set. -/
def withPixel (i : Nat) (p : Rgb) : State := { small .S with fb := [(i, p)] }

/-- One frame of a mode from reset, the random source answering `draws` first. -/
def firstFrame (m : BitVec 5) (draws : List (BitVec 16) := []) : State :=
  State.nextFrame { small .S draws with mode := m }

/-- MODE, BRIGHT and DIAG, the scalars a configuration operation may touch. -/
def scalars (s : State) : Nat × Nat × Nat := (s.mode.toNat, s.bright.toNat, s.diag.toNat)

/-- The host's word from a state with the given MODE and BRIGHT. -/
def config (iss : Issuer) (m : BitVec 5) (b : Byte) (w : OpWord) : Nat × Nat × Nat :=
  scalars (word iss w { State.reset with mode := m, bright := b })

/-! ### Well-formedness: one ill-formed term for each check (R83, R86) -/

theorem test_wellFormed_huedist : (Instr.huedist 5 0 1).wellFormed = false := by decide
theorem test_wellFormed_randn : (Instr.randn 0).wellFormed = false := by decide
theorem test_wellFormed_boundary :
    (Instr.huedist 255 1 255).wellFormed = true ∧ (Instr.randn 1).wellFormed = true := by decide

/-! ### Decoding: the example words of R85, and words written out field by field from R82 -/

theorem test_decode_config :
    decodeTableWord 40 0x0000000000 = some .nop ∧
    decodeTableWord 40 0x0100000004 = some (.setmode 4) ∧
    decodeTableWord 40 0x0200000001 = some (.adjmode .minus) ∧
    decodeTableWord 40 0x030000012C = some (.setbri 300) ∧
    decodeTableWord 40 0x0400000000 = some (.adjbri .plus) ∧
    decodeTableWord 40 0x05001A0000 = some (.cfgupdM 26) ∧
    decodeTableWord 40 0x0600000080 = some (.cfgupdB 128) ∧
    decodeTableWord 40 0x07000300C8 = some (.cfgupdMB 3 200) ∧
    decodeTableWord 40 0x0800000000 = some .frame := by decide

theorem test_decode_geometry :
    decodeTableWord 40 0x1000000105 = some (.mappix .B 5) ∧
    decodeTableWord 40 0x110000005A = some (.unmap 90) ∧
    decodeTableWord 40 0x120000FFFF = some (.wrap48 (-1)) ∧
    decodeTableWord 40 0x130000022E = some (.cdist 2 46) ∧
    decodeTableWord 40 0x1400002E02 = some (.cfwd 46 2) := by decide

theorem test_decode_colour :
    decodeTableWord 40 0x2000000080 = some (.gamma8 128) ∧
    decodeTableWord 40 0x210055FFFF = some (.hsv2rgb 85 255 255) ∧
    decodeTableWord 40 0x2200003003 = some (.huedist 0 48 3) ∧
    decodeTableWord 40 0x230000C880 = some (.scale8 200 128) ∧
    decodeTableWord 40 0x24000000FF = some (.scale48 255) := by decide

theorem test_decode_oscillators :
    decodeTableWord 40 0x3003200000 = some (.oscTri 3 32 0) ∧
    decodeTableWord 40 0x3100000040 = some (.oscSin 0 0 64) ∧
    decodeTableWord 40 0x320528001E = some (.oscNoise 5 40 30) ∧
    decodeTableWord 40 0x3800000000 = some .rand8 ∧
    decodeTableWord 40 0x3900000030 = some (.randn 48) := by decide

theorem test_decode_frameBuffer :
    decodeTableWord 40 0x4000FF0000 = some (.fill ⟨255, 0, 0⟩) ∧
    decodeTableWord 40 0x41010000FF = some (.fillring .B ⟨0, 0, 255⟩) ∧
    decodeTableWord 40 0x425AFFFFFF = some (.setpix 90 ⟨255, 255, 255⟩) ∧
    decodeTableWord 40 0x4305000000 = some (.getpix 5) ∧
    decodeTableWord 40 0x440000003C = some (.fadeall 60) ∧
    decodeTableWord 40 0x4507000014 = some (.fadepix 7 20) ∧
    decodeTableWord 40 0x46000A141E = some (.addpix 0 ⟨10, 20, 30⟩) ∧
    decodeTableWord 40 0x47000000FF = some (.present 255) := by decide

/-- One word of each opcode group, its fields written out bit by bit from the format table of R82. -/
theorem test_decode_bits :
    decode (0b00000111#8 ++ 0b0000000000000011#16 ++ 0b0000000011001000#16) = .ok (.cfgupdMB 3 200) ∧
    decode (0b00010011#8 ++ 0#18 ++ 0b000010#6 ++ 0b00#2 ++ 0b101110#6) = .ok (.cdist 2 46) ∧
    decode (0b00100001#8 ++ 0#8 ++ 0b00011110#8 ++ 0b10000000#8 ++ 0b11001000#8) =
      .ok (.hsv2rgb 30 128 200) ∧
    decode (0b00110010#8 ++ 0b00000101#8 ++ 0b00101000#8 ++ 0b0000000000011110#16) =
      .ok (.oscNoise 5 40 30) ∧
    decode (0b01000110#8 ++ 0b0#1 ++ 0b1011010#7 ++ 0b00001010#8 ++ 0b00010100#8 ++ 0b00011110#8) =
      .ok (.addpix 90 ⟨10, 20, 30⟩) := ⟨rfl, rfl, rfl, rfl, rfl⟩

/-- The illegal words of R86: unassigned opcodes at the ends of their ranges, reserved bits, `n = 0`. -/
theorem test_decode_illegal :
    decode 0x0900000000 = .error (.unassigned 0x09) ∧
    decode 0xFF12345678 = .error (.unassigned 0xFF) ∧
    decode 0x1000000040 = .error (.reservedField .mappix) ∧
    decode 0x4305000001 = .error (.reservedField .getpix) ∧
    decode 0x4080000000 = .error (.reservedField .fill) ∧
    decode 0x2200050001 = .error (.zeroDivisor .huedist) ∧
    decode 0x3900000000 = .error (.zeroDivisor .randn) := ⟨rfl, rfl, rfl, rfl, rfl, rfl, rfl⟩

/-- The words of R92. -/
theorem test_button_words :
    Button.modeInc.word = 0x0200000000 ∧ Button.modeDec.word = 0x0200000001 ∧
    Button.briInc.word = 0x0400000000 ∧ Button.briDec.word = 0x0400000001 := by decide

/-- Two of the examples of R90. -/
theorem test_assembler : Assembler.asm (.adjmode .minus) = "ADJMODE -1" ∧
    Assembler.asm (.setpix 90 Rgb.white) = "SETPIX 90, (255,255,255)" := ⟨rfl, rfl⟩

theorem test_assembler_reads :
    Assembler.readLine "CFGUPD.MB 3, -200 ; both fields" = some [.cfgupdMB 3 (-200)] ∧
    Assembler.readLine "SETPIX 90, 0xFFFFFF" = some [.setpix 90 Rgb.white] ∧
    Assembler.readLine "ADJBRI -10" = some [.adjbri .minus] ∧ Assembler.readLine "ADJBRI -1" = none ∧
    Assembler.readLine "CLEAR" = some [.fill Rgb.black] := by decide +kernel

/-! ### One operation at a time (95_test_vectors.md, part 2) -/

theorem test_nop : config .H 5 40 0x0000000000 = (5, 40, 0) := by decide
theorem test_nop_reserved : config .H 5 40 0x0000000001 = (5, 40, 2) := by decide
theorem test_setmode : config .H 3 40 0x010000000C = (12, 40, 0) := by decide
theorem test_setmode_negative : config .H 12 40 0x0100008000 = (12, 40, 1) := by decide
theorem test_adjmode_wraps_down : config .H 0 40 0x0200000001 = (26, 40, 0) := by decide
theorem test_adjmode_wraps_up : config .B 26 40 0x0200000000 = (0, 40, 0) := by decide
theorem test_setbri_above : config .H 5 40 0x030000012C = (5, 255, 0) := by decide
theorem test_setbri_below : config .H 5 40 0x030000FFFB = (5, 0, 0) := by decide
theorem test_adjbri_above : config .B 5 250 0x0400000000 = (5, 255, 0) := by decide
theorem test_adjbri_below : config .H 5 5 0x0400000001 = (5, 0, 0) := by decide
theorem test_cfgupdM : config .H 5 40 0x05001A0000 = (26, 40, 0) := by decide
theorem test_cfgupdM_dropped : config .H 5 40 0x05001B0000 = (5, 40, 1) := by decide
theorem test_cfgupdB : config .H 5 40 0x0600000080 = (5, 128, 0) := by decide
theorem test_cfgupdB_dropped : config .H 5 40 0x060000FFFF = (5, 40, 1) := by decide
theorem test_cfgupdMB_mode_dropped : config .H 3 200 0x0700630032 = (3, 50, 1) := by decide
theorem test_cfgupdMB_bright_dropped : config .H 3 50 0x0700050100 = (5, 50, 1) := by decide
theorem test_setmode_from_button : config .B 12 40 0x010000000C = (12, 40, 4) := by decide
theorem test_frame_from_host : config .H 5 40 0x0800000000 = (5, 40, 4) := by decide

theorem test_mappix : response 0x100000012F = some 48 ∧ response 0x100000013F = some 80 := by decide
theorem test_unmap : response 0x110000005A = some 0x80000105 ∧ response 0x1100000060 = some 0 := by
  decide
theorem test_wrap48 : response 0x120000FFCF = some 47 ∧ response 0x1200008000 = some 16 := by decide
theorem test_cdist : response 0x1300000019 = some 23 ∧ response 0x1300003F00 = some 15 := by decide
theorem test_cfwd : response 0x140000022E = some 44 ∧ response 0x1400002F00 = some 1 := by decide
theorem test_gamma8 : response 0x2000000080 = some 56 ∧ response 0x20000000FE = some 253 := by
  decide
theorem test_hsv2rgb : response 0x21001E80C8 = some 0xC8AA63 ∧ response 0x2100D5FFFF = some 0xFE00FF := by
  decide
theorem test_huedist : response 0x2200FA302F = some 244 ∧ response 0x2200050001 = none := by decide
theorem test_scale8 : response 0x230000FEFE = some 253 ∧ response 0x23000001FE = some 0 := by decide
theorem test_scale48 : response 0x240000000B = some 2 ∧ response 0x24000000FF = some 47 := by decide
theorem test_oscTri : response 0x3000000040 = some 129 ∧ response 0x30FFFF0001 = some 4 := by decide
theorem test_oscSin : response 0x312F10FFFF = some 76 ∧ response 0x31000000A0 = some 37 := by decide
theorem test_oscNoise : response 0x320528001E = some 57 ∧ response 0x320000FFFF = some 146 := by
  decide

theorem test_rand8 : (word .S 0x3800000000 (small .S [0x7FFF])).sRes = some 127 ∧
    (word .S 0x3800000000 (small .S [0x7FFF])).drawPos = 1 := by decide
theorem test_randn : (word .S 0x3900000030 (small .S [0x4FFF])).sRes = some 14 := by decide
theorem test_randn_zero : (word .S 0x3900000000 (small .S [5])).drawPos = 0 ∧
    (word .S 0x3900000000 (small .S [5])).diag = 2 := by decide

theorem test_fill : (word .S 0x4000FF0000 (small .S)).fb.read 95 = Rgb.red := by decide
theorem test_fillring : (word .S 0x41010000FF (small .S)).fb.read 48 = Rgb.blue ∧
    (word .S 0x41010000FF (small .S)).fb.read 47 = Rgb.black := by decide
theorem test_setpix : (word .S 0x425AFFFFFF (small .S)).fb = [(90, Rgb.white)] := by decide
theorem test_setpix_out : (word .S 0x4260FFFFFF (small .S)).fb = [] ∧
    (word .S 0x4260FFFFFF (small .S)).diag = 8 := by decide
theorem test_getpix : (word .S 0x4305000000 (withPixel 5 ⟨1, 2, 3⟩)).sRes = some 0x010203 := by decide
theorem test_fadeall : (word .S 0x440000003C (withPixel 9 ⟨255, 30, 0⟩)).fb = [(9, ⟨195, 0, 0⟩)] := by
  decide
theorem test_fadepix : (word .S 0x4507000014 (withPixel 7 ⟨25, 20, 15⟩)).fb = [(7, ⟨5, 0, 0⟩)] := by
  decide
theorem test_addpix : (word .S 0x46000A141E (withPixel 0 ⟨250, 100, 0⟩)).fb = [(0, ⟨255, 120, 30⟩)] := by
  decide
theorem test_present : (word .S 0x4700000080 (withPixel 0 ⟨200, 100, 1⟩)).outLog.map
      (fun f => (f.pixels.head?, f.pixels.length)) = [(some ⟨100, 50, 0⟩, 96)] ∧
    (word .S 0x4700000080 (withPixel 0 ⟨200, 100, 1⟩)).fb = [(0, ⟨200, 100, 1⟩)] := by decide

/-! ### Modes: first frames (95_test_vectors.md 2.8) and the memory's form -/

theorem test_reset_memory : State.reset.fb.wf = true := by decide
theorem test_frame_swirl : (firstFrame 19).x.x0 = 30 ∧
    (firstFrame 19).fb.read 0 = hsv2rgb 147 255 255 := by decide +kernel
theorem test_frame_firefly : (firstFrame 16 [0x4FFF, 0x8000, 0x5500, 0x5000]).drawPos = 4 ∧
    (firstFrame 16 [0x4FFF, 0x8000, 0x5500, 0x5000]).fb.map Prod.fst = [24] := by decide +kernel

/-! ### MODE_TABLE as a parameter (R11, R222) and `rand_req` (R46) -/

/-- Mode 2's procedure (R242) written as a program. -/
def flashProc : Proc :=
  .seq (.cond (.same (.reg 0) (.const 0)) (.issue 0 (.fill (.const 0x0000FF))) (.issue 0 (.fill (.const 0))))
    (.write 0 (.xor (.reg 0) (.const 1)))

/-- One frame of mode 2 under a table whose entry for it is another one, the bank as given. -/
def framed (d : ModeDesc) (x : MsBank) : State :=
  State.nextFrame { small .S with
    cfg := { defaultParams with modeTable := modeTable.set 2 d }, mode := 2, lastMode := 2, x := x }

theorem test_table_program :
    (framed ⟨77, .custom .done flashProc⟩ ⟨0, 0, 0, 0⟩).fb = (framed ⟨77, .standard 2⟩ ⟨0, 0, 0, 0⟩).fb ∧
    (framed ⟨77, .custom .done flashProc⟩ ⟨0, 0, 0, 0⟩).fb.read 95 = Rgb.blue ∧
    (framed ⟨77, .custom .done flashProc⟩ ⟨0, 0, 0, 0⟩).x = ⟨1, 0, 0, 0⟩ ∧
    (framed ⟨77, .custom .done flashProc⟩ ⟨0, 0, 0, 0⟩).delay = 77 := by decide

/-- A loop, a draw and an operation's result: three draws plotted one after another. -/
theorem test_table_loop :
    (performProc defaultParams
      (.loop 0 (.const 3) (.seq (.issue 1 (.randn (.const 48)))
        (.seq (.issue 2 (.mappix (.const 1) (.var 1))) (.issue 3 (.setpix (.var 2) (.add (.var 0) (.const 1)))))))
      (small .S [0, 0x8000, 0xFFFF]).canvas).fb = [(48, ⟨0, 0, 3⟩), (71, ⟨0, 0, 2⟩), (95, ⟨0, 0, 1⟩)] := by decide

theorem test_randReq : ((firstFrame 18 [0, 0]).wires false).randReq = 2 ∧
    ((firstFrame 18 [0, 0]).openClock.wires false).randReq = 0 := by decide

/-! ### Witnesses: the hypotheses of the obligations are met -/

/-- The state after reset, the sequencer about to issue FRAME in a mode, LASTMODE and the bank as given. -/
def due (m last : BitVec 5) (x : MsBank) (draws : List (BitVec 16) := []) : State :=
  { small .S draws with mode := m, lastMode := last, x := x }

theorem due_ready (m last : BitVec 5) (x : MsBank) (draws : List (BitVec 16)) :
    (due m last x draws).FrameReady := ⟨⟨rfl, rfl, rfl, rfl⟩, rfl⟩

theorem due_unhindered (m last : BitVec 5) (x : MsBank) : (due m last x).Unhindered := ⟨rfl, rfl, rfl⟩

theorem due_table (m last : BitVec 5) (x : MsBank) (draws : List (BitVec 16)) :
    (due m last x draws).cfg.modeTable = modeTable := rfl

theorem due_canonical (m last : BitVec 5) (x : MsBank) (draws : List (BitVec 16)) :
    (due m last x draws).fb.wf = true := rfl

theorem witness_DecodeInvertsEncode :
    (Instr.huedist 255 1 255).wellFormed = true ∧ (Instr.setpix 127 Rgb.white).wellFormed = true := by decide

theorem witness_EncodeInvertsDecode : decode 0x22FF01FFFF = .error (.reservedField .huedist) ∧
    decode 0x2200FF01FF = .ok (.huedist 255 1 255) := ⟨rfl, rfl⟩

theorem witness_IllegalWordsDropped_opcode :
    (∀ op : Op, op.code ≠ opcodeOf 0x0900000000) ∧ ∀ op : Op, op.code ≠ opcodeOf 0xFF00000000 := by
  constructor <;> intro op <;> cases op <;> decide

theorem witness_IllegalWordsDropped_field :
    Op.nop.code = opcodeOf 0x0000000001 ∧ mayIssue .H .nop = true ∧
    ∀ i : Instr, i.wellFormed = true → encode i ≠ 0x0000000001 := by
  refine ⟨by decide, by decide, fun i _ h => ?_⟩
  have hc : i.op.code = 0 := by
    have := congrArg opcodeOf h
    rwa [encode, opcodeOf_append] at this
  have hop : i.op = .nop := by
    revert hc
    cases i.op <;> decide
  cases i <;> cases hop
  exact absurd h (by decide)

theorem witness_ForbiddenIssuerDropped :
    Op.frame.code = opcodeOf 0x08FFFFFFFF ∧ mayIssue .H .frame = false ∧
    Op.nop.code = opcodeOf 0x0000000000 ∧ mayIssue .B .nop = false ∧ mayIssue .S .nop = false := by decide

/-- A state with words on its agenda. -/
def pending (l : List Action) : State := { State.reset with agenda := l }

theorem witness_StepRunsDecodedWord :
    (pending [.word .H 0x010000001B]).agenda = .word .H 0x010000001B :: [] ∧
    decode 0x010000001B = .ok (.setmode 27) ∧
    (pending [.word .S 0x0800000000, .reset]).agenda = .word .S 0x0800000000 :: [.reset] ∧
    decode 0x0800000000 = .ok .frame := ⟨rfl, rfl, rfl, rfl⟩

theorem witness_PlacedWordRunsNext : (Instr.randn 1).wellFormed = true ∧ (Instr.frame).wellFormed = true := by
  decide

/-- A clock with every button pulsed and a word on the command port. -/
def busyClock : ClockIn := ⟨false, true, some 0x0300000080, true, true, true, true, none⟩

theorem witness_ButtonPulsesFormTheirWords :
    busyClock.rst = false ∧ busyClock.modeInc = true ∧ busyClock.modeDec = true ∧ busyClock.briInc = true ∧
    busyClock.briDec = true ∧ Action.word .B 0x0200000000 ∈ busyClock.actions ∧
    Action.word .B 0x0400000001 ∈ busyClock.actions := by decide

theorem witness_ClockActionsInOrder :
    ({ quietClock with rst := true } : ClockIn).rst = true ∧
    ({ State.reset with inputs := [busyClock] } : State).agenda = [] ∧
    ({ State.reset with inputs := [busyClock] } : State).inputs = busyClock :: [] := ⟨rfl, rfl, rfl⟩

theorem witness_ResetTakesTableValues :
    ({ withPixel 95 Rgb.white with agenda := [.reset], mode := 26 } : State).agenda = .reset :: [] ∧
    ∃ s, step { withPixel 95 Rgb.white with agenda := [.reset], mode := 26 } = .next s := ⟨rfl, _, rfl⟩

theorem witness_NopLeavesEverything :
    State.reset.issuer = .H ∧ opcodeOf 0x0000000001 = 0 ∧ (0x0000000001 : OpWord) ≠ 0 ∧ opcodeOf 0x00FFFFFFFF = 0 ∧
    (0x00FFFFFFFF : OpWord) ≠ 0 ∧ Issuer.B ≠ .H := by decide

theorem witness_ModeRequestWrittenOrDropped :
    State.reset.issuer = .H ∧ ((26 : BitVec 5).toNat : Int) = (26 : BitVec 16).toInt ∧
    ((0 : BitVec 5).toNat : Int) = (0 : BitVec 16).toInt ∧ (26 : BitVec 5).toNat ≤ 26 ∧
    (26 : Int) < (27 : BitVec 16).toInt ∧ (-1 : BitVec 16).toInt < 0 := by decide

theorem witness_AdjmodeStepsModulo27 :
    (due 26 31 ⟨0, 0, 0, 0⟩).mode.toNat ≤ 26 ∧ State.reset.mode.toNat ≤ 26 ∧ State.reset.issuer ≠ .S := by
  decide

theorem witness_BrightnessRequestsClamp : (small .H).issuer = .H ∧ (small .B).issuer ≠ .S := by decide

theorem witness_NetworkUpdateJudgesEachField : (small .H).issuer = .H ∧
    (0 : Int) ≤ (26 : BitVec 16).toInt ∧ (26 : BitVec 16).toInt ≤ 26 ∧ ¬((27 : BitVec 16).toInt ≤ 26) ∧
    ¬((0 : Int) ≤ (-1 : BitVec 16).toInt) ∧ (255 : BitVec 16).toInt ≤ 255 ∧ ¬((256 : BitVec 16).toInt ≤ 255) := by
  decide

theorem witness_OnlyConfigurationWritesScalars :
    ∃ t, step (pending [.word .B 0x0400000001]) = .next t ∧
      t.bright ≠ (pending [.word .B 0x0400000001]).bright := ⟨_, rfl, by decide⟩

theorem witness_PortWordsChangeOnlyConfig :
    Issuer.H ≠ .S ∧ Issuer.B ≠ .S ∧
    (pending [.word .H 0x4080000000]).agenda = .word .H 0x4080000000 :: [] := ⟨by decide, by decide, rfl⟩

theorem witness_MapperAndItsInverse :
    (47 : BitVec 7).toNat ≤ 47 ∧ 48 ≤ (48 : BitVec 7).toNat ∧ (95 : BitVec 7).toNat ≤ 95 ∧
    96 ≤ (96 : BitVec 7).toNat ∧ 96 ≤ (127 : BitVec 7).toNat ∧ (47 : BitVec 6).toNat ≤ 47 := by decide

/-- A pure operation's answer has both issuers' hypotheses met (for every statement about an answer). -/
theorem witness_answers : (small .H).issuer = .H ∧ (small .S).issuer = .S := ⟨rfl, rfl⟩

theorem witness_PositionFieldsReduceModulo48 :
    (2 : BitVec 6).toNat = (50 : BitVec 6).toNat % 48 ∧ (15 : BitVec 6).toNat = (63 : BitVec 6).toNat % 48 ∧
    (0 : BitVec 6).toNat = (48 : BitVec 6).toNat % 48 := by decide

theorem witness_ScalingPrimitiveLaws :
    (0 : Byte) ≤ 255 ∧ (254 : Byte) ≤ 255 ∧ 65025 ≤ 65025 := by decide

theorem witness_HsvSixSectors :
    (42 : Byte).toNat ≤ 42 ∧ 43 ≤ (43 : Byte).toNat ∧ (85 : Byte).toNat ≤ 85 ∧ 86 ≤ (86 : Byte).toNat ∧
    (127 : Byte).toNat ≤ 127 ∧ 128 ≤ (128 : Byte).toNat ∧ (170 : Byte).toNat ≤ 170 ∧ 171 ≤ (171 : Byte).toNat ∧
    (213 : Byte).toNat ≤ 213 ∧ 214 ≤ (214 : Byte).toNat := by decide

theorem witness_HueDistributionIsIteration :
    (255 : Byte) ≠ 0 ∧ (small .H).issuer ≠ .B ∧ (47 : Byte).toNat ≤ 47 ∧ (47 : Byte).toNat % 3 = 2 ∧
    (0 : Byte).toNat % 3 ≠ 2 := by decide

theorem witness_TriangleSegments :
    ((0 : Byte).toNat * (0 : Byte).toNat + (63 : BitVec 16).toNat) % 256 ≤ 63 ∧
    ((1 : Byte).toNat * (64 : Byte).toNat + (0 : BitVec 16).toNat) % 256 = 64 ∧
    ((1 : Byte).toNat * (127 : Byte).toNat + (0 : BitVec 16).toNat) % 256 = 127 ∧
    ((255 : Byte).toNat * (255 : Byte).toNat + (127 : BitVec 16).toNat) % 256 = 128 ∧
    ((0 : Byte).toNat * (0 : Byte).toNat + (191 : BitVec 16).toNat) % 256 = 191 ∧
    192 ≤ ((0 : Byte).toNat * (0 : Byte).toNat + (192 : BitVec 16).toNat) % 256 := by decide

theorem witness_DrawsAnswerScaledWords : (small .S).issuer = .S ∧ (1 : Byte) ≠ 0 ∧ (255 : Byte) ≠ 0 := by decide

theorem witness_FillsPaintTheirSpan :
    (withPixel 95 Rgb.white).issuer = .S ∧ (withPixel 95 Rgb.white).fb.wf = true := by decide

theorem witness_SetpixAndGetpixTouchOnePixel :
    (withPixel 95 Rgb.red).issuer = .S ∧ (withPixel 95 Rgb.red).fb.wf = true ∧ (0 : BitVec 7).toNat ≤ 95 ∧
    (95 : BitVec 7).toNat ≤ 95 ∧ 96 ≤ (96 : BitVec 7).toNat ∧ 96 ≤ (127 : BitVec 7).toNat := by decide

theorem witness_FadesSubtractPerChannel :
    (withPixel 0 ⟨255, 1, 0⟩).issuer = .S ∧ (withPixel 0 ⟨255, 1, 0⟩).fb.wf = true ∧
    (95 : BitVec 7).toNat ≤ 95 ∧ 96 ≤ (127 : BitVec 7).toNat := by decide

theorem witness_AddpixSaturatesPerChannel :
    (withPixel 0 ⟨250, 100, 0⟩).issuer = .S ∧ (withPixel 0 ⟨250, 100, 0⟩).fb.wf = true ∧
    (0 : BitVec 7).toNat ≤ 95 ∧ (95 : BitVec 7).toNat ≤ 95 ∧ 96 ≤ (96 : BitVec 7).toNat := by decide

theorem witness_BlendAndFadeLaws :
    (withPixel 5 ⟨255, 60, 0⟩).issuer = .S ∧ (withPixel 5 ⟨255, 60, 0⟩).fb.wf = true ∧ (5 : BitVec 7).toNat ≤ 95 ∧
    (∃ t, exec (.fadeall 60) (withPixel 5 ⟨255, 60, 0⟩) = .next t) ∧
    (∃ t, exec (.fadepix 5 60) (withPixel 5 ⟨255, 60, 0⟩) = .next t) ∧
    (∃ t, exec (.addpix 5 Rgb.red) (withPixel 5 ⟨255, 60, 0⟩) = .next t) ∧
    (255 : Byte).toNat = min 255 ((200 : Byte).toNat + (100 : Byte).toNat) ∧
    (120 : Byte).toNat = min 255 ((60 : Byte).toNat + (60 : Byte).toNat) ∧ (1 : Byte) ≠ 0 ∧
    10 ≤ (10 : Byte).toNat ∧ (80 : Byte).toNat ≤ 80 := by
  refine ⟨by decide, by decide, by decide, ⟨_, rfl⟩, ⟨_, rfl⟩, ⟨_, rfl⟩, ?_⟩
  decide

/-- A state whose consumer takes `n` pixels. -/
def accepting (n : Nat) : State := { withPixel 95 Rgb.white with consumer := .accepts n }

theorem witness_PresentHandsFrameOver :
    (small .S).issuer = .S ∧ (small .S).consumer = .ready ∧ (accepting 0).consumer = .accepts 0 ∧
    (accepting 95).consumer = .accepts 95 ∧ (accepting 96).consumer = .accepts 96 ∧
    (accepting 96).issuer = .S := by decide

/-- A hand-off of which `k` pixels are done, the consumer taking `n` more. -/
def inFlight (k n : Nat) : State :=
  { accepting n with
    seq := .present
    outBright := 128
    frameDelay := some 20
    handoff := (List.range k).map fun i => scaleRgb 128 ((accepting n).fb.read i) }

/-- `out_last` is high with pixel 95 while `out_valid` is high, and a cut-off frame shows none (R46, R370). -/
theorem test_out_last :
    ((inFlight 95 0).wires false).outLast = true ∧ ((inFlight 94 0).wires false).outLast = false ∧
    ((inFlight 95 0).wires true).outLast = false ∧ ((inFlight 95 0).wires true).outValid = false := by decide

theorem witness_HandoffResumesWhereItStood :
    (inFlight 95 0).seq = .present ∧ (inFlight 95 0).handoff = (List.range 95).map (inFlight 95 0).outPixel ∧
    (inFlight 95 0).consumer = .accepts 0 ∧ 95 + 0 ≤ 95 ∧
    (inFlight 95 1).handoff = (List.range 95).map (inFlight 95 1).outPixel ∧
    (inFlight 95 1).consumer = .accepts 1 ∧ 96 ≤ 95 + 1 ∧
    ({ inFlight 0 0 with consumer := .ready } : State).consumer = .ready ∧
    ({ inFlight 0 0 with consumer := .ready } : State).handoff = [] :=
  ⟨rfl, rfl, rfl, by decide, rfl, rfl, by decide, rfl, rfl⟩

theorem witness_FrameRunsWholeCycle :
    (due 26 31 ⟨0, 0, 0, 0⟩).FrameDue ∧ (due 3 3 ⟨47, 255, 0, 0⟩).consumer = .ready ∧
    (accepting 0).FrameDue ∧ (accepting 0).consumer = .accepts 0 ∧ 0 ≤ 95 ∧ (accepting 95).FrameDue ∧
    (accepting 95).consumer = .accepts 95 ∧ (accepting 96).FrameDue ∧ (accepting 96).consumer = .accepts 96 :=
  ⟨⟨rfl, rfl, rfl, rfl⟩, rfl, ⟨rfl, rfl, rfl, rfl⟩, rfl, by decide, ⟨rfl, rfl, rfl, rfl⟩, rfl,
    ⟨rfl, rfl, rfl, rfl⟩, rfl⟩

/-- A state about to issue FRAME, the coming render taking 3 clocks. -/
def slowRender : State := { due 12 31 ⟨0, 0, 0, 0⟩ with renderLats := [3] }

theorem witness_RenderTimeChangesNothing :
    slowRender.issuer = .S ∧ slowRender.seq = .wait ∧ slowRender.delay = 0 ∧ slowRender.renderLats = 3 :: [] := by
  decide

theorem witness_FrameIgnoresLaterWrites :
    (inFlight 95 1).seq ≠ .wait ∧ (∃ t, (inFlight 95 1).runSequencer true = .next t) ∧
    ({ slowRender with seq := .render, renderLeft := 2 } : State).seq ≠ .wait ∧
    ∃ t, ({ slowRender with seq := .render, renderLeft := 2 } : State).runSequencer false = .next t :=
  ⟨by decide, ⟨_, rfl⟩, by decide, ⟨_, rfl⟩⟩

theorem witness_ResetIsolatesModes :
    (due 4 0 ⟨255, 0, 0, 0⟩).FrameReady ∧ (due 4 13 ⟨46, 1, 0, 0⟩).FrameReady ∧
    (due 4 0 ⟨255, 0, 0, 0⟩).fb.wf = true ∧ (due 4 13 ⟨46, 1, 0, 0⟩).fb.wf = true ∧
    (due 4 0 ⟨255, 0, 0, 0⟩).mode = (due 4 13 ⟨46, 1, 0, 0⟩).mode ∧
    (due 4 0 ⟨255, 0, 0, 0⟩).bright = (due 4 13 ⟨46, 1, 0, 0⟩).bright ∧
    (due 4 0 ⟨255, 0, 0, 0⟩).cfg = (due 4 13 ⟨46, 1, 0, 0⟩).cfg ∧
    (due 4 0 ⟨255, 0, 0, 0⟩).draws = (due 4 13 ⟨46, 1, 0, 0⟩).draws ∧
    (due 4 0 ⟨255, 0, 0, 0⟩).drawPos = (due 4 13 ⟨46, 1, 0, 0⟩).drawPos ∧
    (due 4 0 ⟨255, 0, 0, 0⟩).mode ≠ (due 4 0 ⟨255, 0, 0, 0⟩).lastMode ∧
    (due 4 13 ⟨46, 1, 0, 0⟩).mode ≠ (due 4 13 ⟨46, 1, 0, 0⟩).lastMode :=
  ⟨due_ready _ _ _ _, due_ready _ _ _ _, rfl, rfl, rfl, rfl, rfl, rfl, rfl, by decide, by decide⟩

theorem witness_UnknownModeFallsBack :
    (due 27 31 ⟨0, 0, 0, 0⟩).FrameReady ∧ (due 27 31 ⟨0, 0, 0, 0⟩).fb.wf = true ∧
    27 ≤ (due 27 31 ⟨0, 0, 0, 0⟩).mode.toNat ∧ 27 ≤ (due 31 31 ⟨0, 0, 0, 0⟩).mode.toNat :=
  ⟨due_ready _ _ _ _, rfl, by decide, by decide⟩

theorem witness_FrameLoadsModeDelay : (due 26 26 ⟨7, 0, 0, 0⟩).FrameReady ∧ (due 0 31 ⟨0, 0, 0, 0⟩).FrameReady ∧
    (due 26 26 ⟨7, 0, 0, 0⟩).cfg.modeTable[(due 26 26 ⟨7, 0, 0, 0⟩).mode.toNat]? = some ⟨10, .standard 26⟩ ∧
    (due 0 31 ⟨0, 0, 0, 0⟩).cfg.modeTable[(due 0 31 ⟨0, 0, 0, 0⟩).mode.toNat]? = some ⟨20, .standard 0⟩ :=
  ⟨due_ready _ _ _ _, due_ready _ _ _ _, rfl, rfl⟩

theorem witness_DelayCountsTicks :
    ({ State.reset with delay := 1 } : State).seq = .wait ∧ ({ State.reset with delay := 1 } : State).delay ≠ 0 ∧
    ({ small .S with delay := 255 } : State).issuer = .S ∧ ({ small .S with delay := 255 } : State).delay ≠ 0 ∧
    (inFlight 0 0).issuer = .S ∧ (inFlight 0 0).seq ≠ .wait := by decide

theorem witness_RainbowAdvancesByOne :
    (due 0 0 ⟨255, 0, 0, 0⟩).Unhindered ∧ (due 0 0 ⟨255, 0, 0, 0⟩).cfg.modeTable = modeTable ∧
    (due 0 0 ⟨255, 0, 0, 0⟩).mode = 0 ∧
    (due 0 0 ⟨255, 0, 0, 0⟩).lastMode = 0 ∧ (due 0 0 ⟨255, 0, 0, 0⟩).fb.wf = true ∧
    (due 0 0 ⟨255, 0, 0, 0⟩).x.x0.toNat ≤ 255 ∧ 1 ≤ 1 ∧ 47 ≤ 47 :=
  ⟨due_unhindered _ _ _, rfl, rfl, rfl, rfl, by decide, by decide, by decide⟩

theorem witness_SideWipePaintsFromEnds :
    (due 4 0 ⟨255, 0, 0, 0⟩).Unhindered ∧ (due 4 0 ⟨255, 0, 0, 0⟩).cfg.modeTable = modeTable ∧
    (due 4 0 ⟨255, 0, 0, 0⟩).mode = 4 ∧
    (due 4 0 ⟨255, 0, 0, 0⟩).lastMode ≠ 4 ∧ (due 4 0 ⟨255, 0, 0, 0⟩).fb.wf = true ∧ 1 ≤ 1 ∧ 48 ≤ 48 ∧ 47 ≤ 47 :=
  ⟨due_unhindered _ _ _, rfl, rfl, by decide, rfl, by decide, by decide, by decide⟩

theorem witness_BouncePositionSweeps :
    (due 12 31 ⟨0, 0, 0, 0⟩).Unhindered ∧ (due 12 31 ⟨0, 0, 0, 0⟩).cfg.modeTable = modeTable ∧
    (due 12 31 ⟨0, 0, 0, 0⟩).fb.wf = true ∧ (due 12 31 ⟨0, 0, 0, 0⟩).mode = 12 ∧
    (due 13 12 ⟨46, 1, 9, 0⟩).mode = 13 ∧ (due 13 12 ⟨46, 1, 9, 0⟩).lastMode ≠ 13 ∧
    (due 12 31 ⟨0, 0, 0, 0⟩).lastMode ≠ 12 ∧ 1 ≤ 1 := ⟨due_unhindered _ _ _, rfl, by decide⟩

theorem witness_TrailModesPlotTheirPoints :
    (due 8 8 ⟨255, 255, 0, 0⟩).FrameReady ∧ (due 8 8 ⟨255, 255, 0, 0⟩).cfg.modeTable = modeTable ∧
    (due 8 8 ⟨255, 255, 0, 0⟩).fb.wf = true ∧
    [(8, (⟨255, 255, 0, 0⟩ : MsBank)), (9, ⟨255, 0, 0, 0⟩), (10, ⟨47, 255, 0, 0⟩), (11, ⟨47, 0, 0, 0⟩),
      (12, ⟨47, 1, 255, 0⟩), (13, ⟨46, 0, 0, 0⟩), (14, ⟨24, 255, 0, 0⟩)].all
        (fun r => (due r.1 r.1 r.2).startBank.inRange r.1.toNat) = true ∧
    (due 14 17 ⟨47, 47, 12, 255⟩).startBank.inRange 14 = true :=
  ⟨due_ready _ _ _ _, rfl, rfl, by decide, by decide⟩

theorem witness_FillModesFollowCycle :
    (due 1 31 ⟨0, 0, 0, 0⟩).Unhindered ∧ (due 1 31 ⟨0, 0, 0, 0⟩).cfg.modeTable = modeTable ∧
    (due 1 31 ⟨0, 0, 0, 0⟩).lastMode ≠ (due 1 31 ⟨0, 0, 0, 0⟩).mode ∧ (due 1 31 ⟨0, 0, 0, 0⟩).fb.wf = true ∧
    0 ≤ 95 ∧ 95 ≤ 95 ∧
    (([1, 2, 20, 22, 23, 24, 25, 26] : List (BitVec 5)).map fun m => (due m 31 ⟨0, 0, 0, 0⟩).mode) =
      [1, 2, 20, 22, 23, 24, 25, 26] ∧
    ([0, 64, 129, 193, 255, 191, 126, 62] : List Byte)[7 % 8]? = some 62 :=
  ⟨due_unhindered _ _ _, rfl, by decide⟩

theorem witness_SparkleTakesOneOrThreeDraws :
    (due 15 31 ⟨0, 0, 0, 0⟩ [0x7FFF, 0, 0]).FrameReady ∧
    (due 15 31 ⟨0, 0, 0, 0⟩ [0x7FFF, 0, 0]).cfg.modeTable = modeTable ∧
    (due 15 31 ⟨0, 0, 0, 0⟩ [0x7FFF, 0, 0]).fb.wf = true ∧
    (due 15 31 ⟨0, 0, 0, 0⟩ [0x7FFF, 0, 0]).mode = 15 ∧
    ((due 15 31 ⟨0, 0, 0, 0⟩ [0x7FFF, 0, 0]).drawAhead 0).toNat < 0x8000 ∧
    0x8000 ≤ ((due 15 31 ⟨0, 0, 0, 0⟩ [0x8000]).drawAhead 0).toNat :=
  ⟨due_ready _ _ _ _, rfl, rfl, rfl, by decide, by decide⟩

theorem witness_FireflyAndBarGraphTakeTheirDraws :
    (due 16 31 ⟨0, 0, 0, 0⟩ [0x4FFF, 0, 0, 0x5000]).FrameReady ∧
    (due 16 31 ⟨0, 0, 0, 0⟩ [0x4FFF, 0, 0, 0x5000]).cfg.modeTable = modeTable ∧
    (due 16 31 ⟨0, 0, 0, 0⟩ [0x4FFF, 0, 0, 0x5000]).fb.wf = true ∧
    ((due 16 31 ⟨0, 0, 0, 0⟩ [0x4FFF, 0, 0, 0x5000]).drawAhead 0).toNat < 0x5000 ∧
    ¬((due 16 31 ⟨0, 0, 0, 0⟩ [0x4FFF, 0, 0, 0x5000]).drawAhead 3).toNat < 0x5000 ∧
    (due 16 31 ⟨0, 0, 0, 0⟩).mode = 16 ∧ (due 18 18 ⟨0, 0, 0, 0⟩ [0xFFFF, 0]).mode = 18 ∧ 47 ≤ 47 :=
  ⟨due_ready _ _ _ _, rfl, rfl, by decide⟩

theorem witness_ShockwaveExpandsAndDraws :
    (due 17 17 ⟨47, 0, 12, 255⟩).FrameReady ∧ (due 17 17 ⟨47, 0, 12, 255⟩).cfg.modeTable = modeTable ∧
    (due 17 17 ⟨47, 0, 12, 255⟩).fb.wf = true ∧ (due 17 17 ⟨47, 0, 12, 255⟩).mode = 17 ∧
    (due 17 17 ⟨47, 0, 12, 255⟩).x.inRange 17 = true ∧ 12 < 12 + 3 ∧
    (due 17 31 ⟨0, 0, 0, 0⟩).lastMode ≠ 17 ∧ 9 + 3 ≤ 12 :=
  ⟨due_ready _ _ _ _, rfl, rfl, rfl, by decide⟩

theorem witness_OnlyRandomizedModesDraw :
    (due 14 31 ⟨0, 0, 0, 0⟩).FrameReady ∧ (due 14 31 ⟨0, 0, 0, 0⟩).cfg.modeTable = modeTable ∧
    (due 14 31 ⟨0, 0, 0, 0⟩).mode.toNat < 15 ∧
    18 < (due 19 31 ⟨0, 0, 0, 0⟩).mode.toNat ∧ (due 26 31 ⟨0, 0, 0, 0⟩).mode.toNat ≤ 26 :=
  ⟨due_ready _ _ _ _, rfl, by decide⟩

theorem witness_SwirlAndSineSamplePerPixel :
    (due 19 19 ⟨65535, 0, 0, 0⟩).FrameReady ∧ (due 19 19 ⟨65535, 0, 0, 0⟩).cfg.modeTable = modeTable ∧
    (due 19 19 ⟨65535, 0, 0, 0⟩).fb.wf = true ∧ (due 19 19 ⟨65535, 0, 0, 0⟩).mode = 19 ∧
    (due 21 0 ⟨7, 0, 0, 0⟩).mode = 21 ∧ 95 ≤ 95 ∧ 47 ≤ 47 :=
  ⟨due_ready _ _ _ _, rfl, rfl, by decide⟩

theorem witness_RotatingPatternsLightWindows :
    ((5 : BitVec 5), 1, 0, 2, (60 : Byte), false, some Rgb.red, 0) ∈
      [((3 : BitVec 5), 2, 2, 1, (0 : Byte), false, (none : Option Rgb), 1), (5, 1, 0, 2, 60, false, some Rgb.red, 0),
        (6, 1, 3, 1, 0, true, none, 2), (7, 4, 1, 3, 0, false, none, 4)] ∧
    (due 5 5 ⟨47, 0, 0, 0⟩).FrameReady ∧ (due 5 5 ⟨47, 0, 0, 0⟩).cfg.modeTable = modeTable ∧
    (due 5 5 ⟨47, 0, 0, 0⟩).fb.wf = true ∧ (due 5 5 ⟨47, 0, 0, 0⟩).mode = 5 ∧
    (due 5 5 ⟨47, 0, 0, 0⟩).startBank.inRange 5 = true ∧
    (due 3 3 ⟨47, 255, 0, 0⟩).startBank.inRange 3 = true ∧ (due 6 4 ⟨23, 1, 0, 0⟩).startBank.inRange 6 = true ∧
    (due 7 7 ⟨47, 255, 0, 0⟩).startBank.inRange 7 = true :=
  ⟨by decide, due_ready _ _ _ _, rfl, by decide⟩

/-- A legal state other than the one after reset: mode 26 asked for, mode 12 last drawn, at the end of its ring,
the longest delay to count. -/
def legal : State := { due 26 12 ⟨47, 1, 255, 0⟩ with delay := 100, sMode := 12, fb := [(95, Rgb.white)] }

theorem legal_inv : legal.Inv where
  mode_legal := by decide
  sMode_legal := by decide
  lastMode_legal := .inl (by decide)
  ms_legal := fun _ => by decide
  table_delays := by decide
  fb_canonical := by decide
  delay_le := by decide
  ports_only := fun a h => absurd h (List.not_mem_nil)
  idle := fun _ => ⟨rfl, rfl⟩
  in_flight := fun h => absurd h (by decide)
  frameDelay_legal := fun d h => absurd h (by simp [legal, due, small, State.reset])
  log_whole := fun f h => absurd h (List.not_mem_nil)

/-- A legal state in PRESENT with one pixel to go. -/
def legalInFlight : State := { inFlight 95 1 with sBright := 128 }

theorem legalInFlight_inv : legalInFlight.Inv where
  mode_legal := by decide
  sMode_legal := by decide
  lastMode_legal := .inr rfl
  ms_legal := fun _ => by decide
  table_delays := by decide
  fb_canonical := by decide
  delay_le := by decide
  ports_only := fun a h => absurd h (List.not_mem_nil)
  idle := fun h => absurd rfl h
  in_flight := fun _ => ⟨by decide, rfl, rfl, rfl⟩
  frameDelay_legal := fun d h => by
    have : d = 20 := by simpa [legalInFlight, inFlight] using h.symm
    subst this
    decide
  log_whole := fun f h => absurd h (List.not_mem_nil)

theorem witness_LegalStatesStayLegal :
    legal.Inv ∧ (∃ t, step legal = .next t) ∧ legalInFlight.Inv ∧ ∃ t, step legalInFlight = .next t :=
  ⟨legal_inv, ⟨_, rfl⟩, legalInFlight_inv, ⟨_, rfl⟩⟩

theorem witness_SequencerRaisesNoEvent : legal.Inv ∧ legal.cfg.modeTable = modeTable ∧ legalInFlight.Inv :=
  ⟨legal_inv, rfl, legalInFlight_inv⟩

theorem witness_EventBitsAreSticky :
    (∃ t, step (pending [.reset]) = .next t) ∧ (∃ rest, (pending [.reset]).agenda = .reset :: rest) ∧
    (∃ t, step (pending [.word .B 0x0900000000]) = .next t) ∧
    ¬∃ rest, (pending [.word .B 0x0900000000]).agenda = .reset :: rest :=
  ⟨⟨_, rfl⟩, ⟨_, rfl⟩, ⟨_, rfl⟩, fun ⟨rest, h⟩ => by simp [pending] at h⟩

theorem witness_FrameComesAfterDelay : legal.Inv ∧ legal.Unhindered ∧ 100 ≤ legal.delay.toNat :=
  ⟨legal_inv, ⟨rfl, rfl, rfl⟩, by decide⟩

end Sys2Proof.Tests
end

section
/-! What an operation does beyond its result: every operation leaves the event bits that are set, and an operation
that a port may issue leaves all that the sequencer owns (spec/10_state.md R36; spec/60_exceptions.md R340, R341). -/

namespace Sys2Proof.Machine

/-! ### Sticky events -/

/-- Every event bit set in `s` is set in `t` (10_state.md R36). -/
def Sticky (s t : State) : Prop := s.diag &&& t.diag = s.diag

theorem sticky_of_eq {s t : State} (h : t.diag = s.diag) : Sticky s t := by
  rw [Sticky, h, BitVec.and_self]

theorem sticky_raise (e : Event) (s : State) : Sticky s (s.raise e) := and_setEvent s.diag e

/-- What holds of a canvas operation holds of the state the canvas is put back into. -/
theorem Grown.sticky {s : State} {c : Canvas} (h : Grown s.canvas c) : Sticky s (s.withCanvas c) := h.2

/-- A result changes no event bit. -/
theorem Sticky.respond {s t : State} (h : Sticky s t) (r : RspWord) : Sticky s (t.respond r) := h

theorem Sticky.trans {s t u : State} (h : Sticky s t) (h' : Sticky t u) : Sticky s u := by
  unfold Sticky at *
  rw [← h, BitVec.and_assoc, h']

/-! ### What a port operation may write -/

/-- The state with the fields blotted out that words from the ports and the opening of a clock write: what is left
belongs to the sequencer, the random source and the parameters. -/
def State.sequencerPart (s : State) : State :=
  { s with
    mode := 0, bright := 0, diag := 0, rsp := none, sRes := none, issuer := .H, agenda := [], inputs := []
    consumer := .ready, clockDraws := 0 }

/-- From `s` to `t` nothing changed but MODE, BRIGHT, DIAG and the results; a legal MODE stayed legal and every
event bit that was set is set (47_mode_controller.md R310). -/
structure PortEffect (s t : State) : Prop where
  part : t.sequencerPart = s.sequencerPart
  agenda : t.agenda = s.agenda
  mode : s.mode.toNat < numMode → t.mode.toNat < numMode
  events : Sticky s t

namespace PortEffect

theorem refl (s : State) : PortEffect s s := ⟨rfl, rfl, id, sticky_of_eq rfl⟩

theorem trans {s t u : State} (h : PortEffect s t) (h' : PortEffect t u) : PortEffect s u :=
  ⟨h'.part.trans h.part, h'.agenda.trans h.agenda, fun hm => h'.mode (h.mode hm), h.events.trans h'.events⟩

theorem raise (e : Event) (s : State) : PortEffect s (s.raise e) := ⟨rfl, rfl, id, sticky_raise e s⟩

theorem respond (r : RspWord) (s : State) : PortEffect s (s.respond r) := ⟨rfl, rfl, id, sticky_of_eq rfl⟩

theorem accept (iss : Issuer) (s : State) : PortEffect s (s.accept iss) := ⟨rfl, rfl, id, sticky_of_eq rfl⟩

theorem setBright (b : Byte) (s : State) : PortEffect s { s with bright := b } :=
  ⟨rfl, rfl, id, sticky_of_eq rfl⟩

theorem setMode {m : BitVec 5} {s : State} (h : s.mode.toNat < numMode → m.toNat < numMode) :
    PortEffect s { s with mode := m } := ⟨rfl, rfl, h, sticky_of_eq rfl⟩

/-- A request in 0..26 is written as it is (47_mode_controller.md R302). -/
theorem requestMode (i : Int) (s : State) : PortEffect s (s.requestMode i) := by
  unfold State.requestMode
  split
  · rename_i h
    refine setMode fun _ => ?_
    simp only [modeInRange, Bool.and_eq_true, decide_eq_true_eq] at h
    simp only [BitVec.toNat_ofInt, numMode]
    omega
  · exact raise .range s

theorem requestBright (b : Int) (s : State) : PortEffect s (s.requestBright b) := by
  unfold State.requestBright
  split
  · exact setBright _ s
  · exact raise .range s

/-- The mode steps within 0..26 (47_mode_controller.md R303). -/
theorem stepMode (dir : Dir) (s : State) : PortEffect s { s with
    mode := match dir with
      | .plus => if s.mode = 26 then 0 else s.mode + 1
      | .minus => if s.mode = 0 then 26 else s.mode - 1 } := by
  refine setMode fun h => ?_
  simp only [numMode] at *
  cases dir <;> simp only <;> split <;> bv_omega

end PortEffect

/-! ### The hand-off and the render -/

theorem handOver_diag (s : State) : s.handOver.diag = s.diag := by
  by_cases h : s.consumer.takes (numPix - s.handoff.length) = numPix - s.handoff.length
  · rw [handOver_finish s h, State.finishFrame_diag]
  · rw [handOver_stall s h]

/-- What the render finds: the canvas as it is, or reset when the mode changed (44_mode_sequencer.md R212). -/
theorem grown_resetIfChanged (s : State) : Grown s.canvas
    (if s.sMode = s.lastMode then s.canvas else resetMode s.cfg s.sMode.toNat s.canvas) := by
  split
  · exact Grown.refl _
  · exact grown_resetMode _ _ _

theorem sticky_completeRender (s : State) : Sticky s s.completeRender := by
  by_cases h : s.renderLeft = 0
  · rw [completeRender_eq s h, Sticky, handOver_diag]
    exact ((grown_resetIfChanged s).trans (grown_renderMode s.cfg s.sMode.toNat _)).2
  · rw [completeRender_wait s h]
    exact sticky_of_eq rfl

theorem sticky_runFrame (s : State) : Sticky s s.runFrame := sticky_completeRender s.sampleConfig

/-! ### Every operation -/

/-- Every operation is one effect behind the issuer check; the effect is sticky, and only an operation the table
gives to the sequencer alone does more than a port operation may. -/
theorem exec_issued (i : Instr) (s : State) : ∃ effect : State, exec i s = issued i.op s effect ∧
    Sticky s effect ∧ (issuersOf i.op = [.S] ∨ PortEffect s effect) := by
  have port {effect : State} (he : exec i s = issued i.op s effect) (h : PortEffect s effect) :
      ∃ effect : State, exec i s = issued i.op s effect ∧ Sticky s effect ∧
        (issuersOf i.op = [.S] ∨ PortEffect s effect) := ⟨effect, he, h.events, .inr h⟩
  cases i with
  | nop => exact port rfl (.refl s)
  | setmode imm16 | cfgupdM mode16 => exact port rfl (.requestMode _ s)
  | adjmode dir => exact port rfl (.stepMode dir s)
  | setbri imm16 | adjbri dir => exact port rfl (.setBright _ s)
  | cfgupdB imm16 => exact port rfl (.requestBright _ s)
  | cfgupdMB mode16 bri16 => exact port rfl ((PortEffect.requestMode _ s).trans (.requestBright _ _))
  | mappix | unmap | wrap48 | cdist | cfwd | gamma8 | hsv2rgb | scale8 | scale48 | oscTri | oscSin | oscNoise =>
    exact port rfl (.respond _ s)
  | huedist start n i =>
    refine port rfl ?_
    split
    · exact .raise .illop s
    · exact .respond _ s
  | frame =>
    refine ⟨_, rfl, ?_, .inl rfl⟩
    split
    · exact sticky_runFrame s
    · exact sticky_of_eq rfl
  | rand8 => exact ⟨_, rfl, ((Kept.refl s.canvas).rand8.grown.sticky).respond _, .inl rfl⟩
  | randn n =>
    refine ⟨_, rfl, ?_, .inl rfl⟩
    split
    · exact sticky_raise .illop s
    · exact ((Kept.refl s.canvas).randN n).grown.sticky.respond _
  | fill rgb => exact ⟨_, rfl, ((Kept.refl s.canvas).fill rgb).grown.sticky, .inl rfl⟩
  | fillring ring rgb => exact ⟨_, rfl, sticky_of_eq (fillRing_diag ring rgb s.canvas), .inl rfl⟩
  | setpix idx rgb => exact ⟨_, rfl, (grown_updatePix idx _ s.canvas).sticky, .inl rfl⟩
  | getpix idx => exact ⟨_, rfl, (grown_getPix idx s.canvas).sticky.respond _, .inl rfl⟩
  | fadeall k => exact ⟨_, rfl, ((Kept.refl s.canvas).fadeAll k).grown.sticky, .inl rfl⟩
  | fadepix idx k => exact ⟨_, rfl, (grown_updatePix idx _ s.canvas).sticky, .inl rfl⟩
  | addpix idx rgb => exact ⟨_, rfl, (grown_updatePix idx _ s.canvas).sticky, .inl rfl⟩
  | present b => exact ⟨_, rfl, sticky_of_eq (handOver_diag _), .inl rfl⟩

/-- Whoever issues it, an operation clears no event bit. -/
theorem exec_sticky {i : Instr} {s t : State} (h : exec i s = .next t) : Sticky s t := by
  obtain ⟨effect, he, hs, -⟩ := exec_issued i s
  obtain ⟨-, hi⟩ | ⟨-, hi⟩ := issued_cases i.op s effect <;> rw [he, hi] at h <;> cases h
  · exact hs
  · exact sticky_raise .priv s

/-- An operation a port issues leaves all that the sequencer owns: what is the sequencer's alone is dropped
(60_exceptions.md R341). -/
theorem exec_portEffect {i : Instr} {s t : State} (hp : s.issuer ≠ .S) (h : exec i s = .next t) :
    PortEffect s t := by
  obtain ⟨effect, he, -, hport⟩ := exec_issued i s
  obtain ⟨hmay, hi⟩ | ⟨-, hi⟩ := issued_cases i.op s effect <;> rw [he, hi] at h <;> cases h
  · refine hport.resolve_left fun hS => hp ?_
    simpa [mayIssue, hS] using hmay
  · exact .raise .priv s

/-- A word that does not decode raises one event. -/
theorem dropWord_portEffect (e : DecodeError) (s : State) : PortEffect s (State.dropWord e s) := by
  cases e with
  | unassigned c => exact .raise .illop s
  | reservedField op | zeroDivisor op =>
    simp only [State.dropWord]
    split
    · exact .raise .illop s
    · exact .raise .priv s

/-- A word from any issuer clears no event bit. -/
theorem runWord_sticky {iss : Issuer} {w : OpWord} {s t : State} (h : s.runWord iss w = .next t) :
    Sticky s t := by
  cases hd : decode w with
  | ok i =>
    rw [runWord_ok hd] at h
    exact (PortEffect.accept iss s).events.trans (exec_sticky h)
  | error e =>
    rw [runWord_error hd] at h
    cases h
    exact ((PortEffect.accept iss s).trans (dropWord_portEffect e _)).events

/-- A word from a port, whatever it is, leaves all that the sequencer owns. -/
theorem runWord_portEffect {iss : Issuer} {w : OpWord} {s t : State} (hp : iss ≠ .S)
    (h : s.runWord iss w = .next t) : PortEffect s t := by
  refine (PortEffect.accept iss s).trans ?_
  cases hd : decode w with
  | ok i => exact exec_portEffect hp (runWord_ok hd iss s ▸ h)
  | error e =>
    rw [runWord_error hd] at h
    cases h
    exact dropWord_portEffect e _

/-! ### Every step -/

/-- The sequencer's slot clears no event bit. -/
theorem runSequencer_sticky {tick : Bool} {s t : State} (h : s.runSequencer tick = .next t) : Sticky s t := by
  cases hq : s.seq with
  | wait =>
    by_cases hd : s.delay = 0
    · rw [runSequencer_due tick hq hd] at h
      exact (PortEffect.accept .S s).events.trans (exec_sticky h)
    · rw [runSequencer_wait tick hq hd] at h
      cases h
      cases tick <;> exact sticky_of_eq rfl
  | render =>
    rw [runSequencer_render tick hq] at h
    cases h
    exact sticky_completeRender { s with renderLeft := s.renderLeft - 1 }
  | present =>
    rw [runSequencer_present tick hq] at h
    cases h
    exact sticky_of_eq (handOver_diag s)

theorem step_reset {s : State} {rest : List Action} (h : s.agenda = .reset :: rest) :
    step s = .next (State.hardReset { s with agenda := rest }) := step_cons h

/-- An action other than a reset clears no event bit. -/
theorem perform_sticky {a : Action} {s t : State} (ha : a ≠ .reset) (h : State.perform a s = .next t) :
    Sticky s t := by
  cases a with
  | reset => exact absurd rfl ha
  | word iss w => exact runWord_sticky h
  | sequencer tick => exact runSequencer_sticky h

/-- A step other than a reset clears no event bit. -/
theorem step_sticky {s t : State} (hr : ¬∃ rest, s.agenda = .reset :: rest) (h : step s = .next t) :
    Sticky s t := by
  cases ha : s.agenda with
  | nil =>
    rw [step_nil ha] at h
    cases h
    exact sticky_of_eq rfl
  | cons a rest =>
    rw [step_cons ha] at h
    exact (sticky_of_eq rfl : Sticky s { s with agenda := rest }).trans
      (perform_sticky (fun e => hr ⟨rest, e ▸ ha⟩) h)

/-- Settles O58: a reset takes DIAG to its reset value, every other action keeps the bits that are set. -/
theorem eventBitsAreSticky : Obligations.EventBitsAreSticky := by
  intro s t h
  refine ⟨fun ⟨rest, hr⟩ => ?_, fun hr => step_sticky hr h⟩
  rw [step_reset hr] at h
  cases h
  rfl

end Sys2Proof.Machine
end

section
/-! The registers of the MS bank: what each render of the default table writes into them, and that every value
stays in the range of its mode (spec/10_state.md R30, R31; spec/44_mode_sequencer.md R213, R224, R225). -/

namespace Sys2Proof.Machine

/-! ### The ranges -/

/-- The range check of the bank as bounds on the four registers. -/
theorem inRange_iff (m : Nat) (x : MsBank) : x.inRange m = true ↔
    x.x0.toNat ≤ (msBounds m).1 ∧ x.x1.toNat ≤ (msBounds m).2.1 ∧ x.x2.toNat ≤ (msBounds m).2.2.1 ∧
      x.x3.toNat ≤ (msBounds m).2.2.2 ∧ (m = 12 ∨ m = 13 → bounceLegal x = true) := by
  simp only [MsBank.inRange, Bool.and_eq_true, Bool.or_eq_true, decide_eq_true_eq, Bool.not_eq_true',
    Bool.or_eq_false_iff, beq_eq_false_iff_ne, and_assoc]
  tauto

/-- A bank of zeros is in the range of every mode. -/
theorem inRange_zero (m : Nat) : MsBank.inRange m ⟨0, 0, 0, 0⟩ = true :=
  (inRange_iff m _).2 ⟨Nat.zero_le _, Nat.zero_le _, Nat.zero_le _, Nat.zero_le _, fun _ => rfl⟩

theorem bounceLegal_iff (x : MsBank) :
    bounceLegal x = true ↔ (x.x1 = 0 → x.x0.toNat < 47) ∧ (x.x1 ≠ 0 → 0 < x.x0.toNat) := by
  unfold bounceLegal
  by_cases h : x.x1 = 0
  · rw [if_pos h, decide_eq_true_eq]
    exact ⟨fun h0 => ⟨fun _ => h0, fun h1 => absurd h h1⟩, fun h' => h'.1 h⟩
  · rw [if_neg h, decide_eq_true_eq]
    exact ⟨fun h0 => ⟨fun h1 => absurd h1 h, fun _ => h0⟩, fun h' => h'.2 h⟩

/-! ### Register arithmetic -/

theorem addMod_toNat (v : BitVec 16) (step : Nat) {n : Nat} (hn : 0 < n ∧ n ≤ 65536) :
    (addMod v step n).toNat = (v.toNat + step) % n := by
  have hlt : (v.toNat + step) % n < n := Nat.mod_lt _ hn.1
  rw [addMod, BitVec.toNat_ofNat, Nat.mod_eq_of_lt (by omega)]

theorem addMod_le (v : BitVec 16) (step : Nat) {n : Nat} (hn : 0 < n ∧ n ≤ 65536) :
    (addMod v step n).toNat ≤ n - 1 := by
  rw [addMod_toNat v step hn]
  exact Nat.le_sub_one_of_lt (Nat.mod_lt _ hn.1)

/-- A register of one bit stays one when its bit is flipped. -/
theorem xor_one_le {v : BitVec 16} (h : v.toNat ≤ 1) : (v ^^^ 1).toNat ≤ 1 := by
  obtain h | h : v = 0 ∨ v = 1 := by bv_omega
  all_goals subst h; decide

/-- A bouncing point going forward moves up by one, and turns on reaching 47 (R225). -/
theorem bounceMove_forward {x : MsBank} (h1 : x.x1 = 0) (h0 : x.x0.toNat < 47) :
    bounceMove x = { x with x0 := x.x0 + 1, x1 := if x.x0.toNat = 46 then 1 else 0 } := by
  have hpos : (x.x0 + 1).toNat = x.x0.toNat + 1 := by bv_omega
  simp only [bounceMove, h1, if_true, hpos]
  by_cases hend : x.x0.toNat = 46
  · rw [if_pos (by omega), if_pos hend]; rfl
  · rw [if_neg (by omega), if_neg hend]

/-- Going backward it moves down by one, and turns on reaching 0 (R225). -/
theorem bounceMove_backward {x : MsBank} (h1 : x.x1 = 1) (h0 : 0 < x.x0.toNat) (h47 : x.x0.toNat ≤ 47) :
    bounceMove x = { x with x0 := x.x0 - 1, x1 := if x.x0.toNat = 1 then 0 else 1 } := by
  have hpos : (x.x0 - 1).toNat = x.x0.toNat - 1 := by bv_omega
  simp only [bounceMove, h1, if_neg (show (1 : BitVec 16) ≠ 0 by decide), hpos]
  by_cases hend : x.x0.toNat = 1
  · rw [if_pos (by omega), if_pos hend]; rfl
  · rw [if_neg (by omega), if_neg hend]

/-- A bouncing point stays on its ring, in a direction in which it can move on (R225). -/
theorem bounceMove_legal {x : MsBank} (h0 : x.x0.toNat ≤ 47) (h1 : x.x1.toNat ≤ 1) (h : bounceLegal x = true) :
    (bounceMove x).x0.toNat ≤ 47 ∧ (bounceMove x).x1.toNat ≤ 1 ∧ bounceLegal (bounceMove x) = true := by
  obtain ⟨hfwd, hback⟩ := (bounceLegal_iff x).1 h
  rw [bounceLegal_iff]
  obtain hd | hd : x.x1 = 0 ∨ x.x1 = 1 := by bv_omega
  · have hlt := hfwd hd
    rw [bounceMove_forward hd hlt]
    by_cases hend : x.x0.toNat = 46
    · simp [hend]
    · simp [hend]; omega
  · have hgt := hback (by rw [hd]; decide)
    rw [bounceMove_backward hd hgt h0]
    by_cases hend : x.x0.toNat = 1
    · simp [hend]
    · simp [hend]; omega

/-! ### What each render writes into the registers -/

theorem loop_x {n : Nat} {body : Nat → Canvas → Canvas} (h : ∀ p c', (body p c').x = c'.x) (c : Canvas) :
    (loop n body c).x = c.x :=
  loop_keeps (P := fun c' => c'.x = c.x) rfl fun p c' hc => (h p c').trans hc

@[simp] theorem rotate_x (n w step : Nat) (bg : Byte) (invert : Bool) (fixed : Option Rgb) (hstep : Nat)
    (c : Canvas) : (rotate n w step bg invert fixed hstep c).x =
      { c.x with x0 := addMod c.x.x0 step 48, x1 := addMod c.x.x1 hstep 256 } := rfl

@[simp] theorem rainbow_x (c : Canvas) : (rainbow c).x = { c.x with x0 := addMod c.x.x0 1 256 } :=
  loop_x (fun _ _ => plot2_x _ _ _) _

@[simp] theorem solidColour_x (c : Canvas) : (solidColour c).x = c.x := fill_x _ c

@[simp] theorem toggledFlash_x (c : Canvas) : (toggledFlash c).x = { c.x with x0 := c.x.x0 ^^^ 1 } := rfl

@[simp] theorem sideWipe_x (c : Canvas) : (sideWipe c).x =
    if c.x.x0 + 1 = 24 then { c.x with x0 := 0, x1 := if c.x.x1 = 0 then 1 else 0 }
    else { c.x with x0 := c.x.x0 + 1 } := rfl

@[simp] theorem sinelon_x (cfg : Config.Params) (c : Canvas) :
    (sinelon cfg c).x = { c.x with x0 := addMod c.x.x0 3 256, x1 := addMod c.x.x1 1 256 } := rfl

@[simp] theorem juggle_x (cfg : Config.Params) (c : Canvas) :
    (juggle cfg c).x = { c.x with x0 := addMod c.x.x0 2 256 } := rfl

@[simp] theorem comets_x (c : Canvas) :
    (comets c).x = { c.x with x0 := addMod c.x.x0 1 48, x1 := addMod c.x.x1 1 256 } := rfl

@[simp] theorem runningLight_x (c : Canvas) :
    (runningLight c).x = { c.x with x0 := addMod c.x.x0 1 48 } := rfl

@[simp] theorem bounce_x (c : Canvas) :
    (bounce c).x = { bounceMove c.x with x2 := addMod c.x.x2 2 256 } := rfl

@[simp] theorem dualBounce_x (c : Canvas) : (dualBounce c).x = bounceMove c.x := rfl

@[simp] theorem ripple_x (c : Canvas) : (ripple c).x =
    if c.x.x0 + 1 = 25 then { c.x with x0 := 0, x1 := addMod c.x.x1 32 256 }
    else { c.x with x0 := c.x.x0 + 1 } := rfl

@[simp] theorem sparkle_x (c : Canvas) : (sparkle c).x = c.x := by
  simp only [sparkle]
  split <;> simp

@[simp] theorem fireflyRing_x (ring : Ring) (c : Canvas) : (fireflyRing ring c).x = c.x := by
  simp only [fireflyRing]
  split <;> simp

@[simp] theorem firefly_x (c : Canvas) : (firefly c).x = c.x := by simp [firefly]

@[simp] theorem barRing_x (ring : Ring) (h : Nat) (c : Canvas) : (barRing ring h c).x = c.x :=
  loop_x (fun _ _ => by simp) c

@[simp] theorem barGraph_x (c : Canvas) : (barGraph c).x = c.x := by simp [barGraph]

/-- The two origins are positions; radius and hue are left (R257). -/
theorem drawOrigins_x (c : Canvas) : (drawOrigins c).x.x0.toNat ≤ 47 ∧ (drawOrigins c).x.x1.toNat ≤ 47 ∧
    (drawOrigins c).x.x2 = c.x.x2 ∧ (drawOrigins c).x.x3 = c.x.x3 := by
  have hA : (c.randN 48).1.toNat < 48 := randN_lt 48 c (by decide)
  have hB : ((c.randN 48).2.randN 48).1.toNat < 48 := randN_lt 48 _ (by decide)
  refine ⟨?_, ?_, rfl, rfl⟩ <;> simp only [drawOrigins, withX_x, BitVec.toNat_setWidth] <;> omega

@[simp] theorem shockFronts_x (ring : Ring) (o rad : Nat) (col : Rgb) (c : Canvas) :
    (shockFronts ring o rad col c).x = c.x := by simp [shockFronts]

@[simp] theorem swirl_x (cfg : Config.Params) (c : Canvas) :
    (swirl cfg c).x = { c.x with x0 := addMod c.x.x0 30 65536 } := rfl

@[simp] theorem breathing_x (c : Canvas) : (breathing c).x =
    { c.x with
      x0 := addMod c.x.x0 2 256
      x1 := if addMod c.x.x0 2 256 = 0 then addMod c.x.x1 16 256 else c.x.x1 } := rfl

@[simp] theorem sineWave_x (cfg : Config.Params) (c : Canvas) :
    (sineWave cfg c).x = { c.x with x0 := addMod c.x.x0 8 65536 } := rfl

@[simp] theorem flashWhite_x (c : Canvas) : (flashWhite c).x = { c.x with x0 := addMod c.x.x0 1 4 } := rfl

@[simp] theorem thunderPulse_x (c : Canvas) :
    (thunderPulse c).x = { c.x with x0 := addMod c.x.x0 1 60 } := rfl

@[simp] theorem bassDrop_x (c : Canvas) : (bassDrop c).x =
    { c.x with
      x0 := addMod c.x.x0 1 16
      x1 := if addMod c.x.x0 1 16 = 0 then addMod c.x.x1 8 256 else c.x.x1 } := rfl

@[simp] theorem raveStrobe_x (c : Canvas) : (raveStrobe c).x =
    { c.x with x0 := c.x.x0 ^^^ 1, x1 := if c.x.x0 = 0 then addMod c.x.x1 37 256 else c.x.x1 } := by
  unfold raveStrobe
  split <;> rfl

@[simp] theorem throttlePulse_x (c : Canvas) :
    (throttlePulse c).x = { c.x with x0 := addMod c.x.x0 1 8 } := rfl

/-! ### Each render keeps the ranges of its mode -/

/-- The bounds of the registers in a mode. -/
theorem le_of_inRange {m : Nat} {x : MsBank} (h : x.inRange m = true) :
    x.x0.toNat ≤ (msBounds m).1 ∧ x.x1.toNat ≤ (msBounds m).2.1 ∧ x.x2.toNat ≤ (msBounds m).2.2.1 ∧
      x.x3.toNat ≤ (msBounds m).2.2.2 := by
  obtain ⟨h0, h1, h2, h3, -⟩ := (inRange_iff m x).1 h
  exact ⟨h0, h1, h2, h3⟩

/-- Bounds are all there is to check in a mode that does not bounce. -/
theorem inRange_of_le {m : Nat} {x : MsBank} (hm : ¬(m = 12 ∨ m = 13)) (h0 : x.x0.toNat ≤ (msBounds m).1)
    (h1 : x.x1.toNat ≤ (msBounds m).2.1) (h2 : x.x2.toNat ≤ (msBounds m).2.2.1)
    (h3 : x.x3.toNat ≤ (msBounds m).2.2.2) : x.inRange m = true :=
  (inRange_iff m x).2 ⟨h0, h1, h2, h3, fun h => absurd h hm⟩

/-- Writing the first two registers within their bounds keeps the range of a mode that does not bounce. -/
theorem inRange_write {m : Nat} {x : MsBank} {v0 v1 : BitVec 16} (hm : ¬(m = 12 ∨ m = 13))
    (h : x.inRange m = true) (h0 : v0.toNat ≤ (msBounds m).1) (h1 : v1.toNat ≤ (msBounds m).2.1) :
    MsBank.inRange m { x with x0 := v0, x1 := v1 } = true := by
  obtain ⟨-, -, h2, h3⟩ := le_of_inRange h
  exact inRange_of_le hm h0 h1 h2 h3

/-- Writing the first register only. -/
theorem inRange_write0 {m : Nat} {x : MsBank} {v0 : BitVec 16} (hm : ¬(m = 12 ∨ m = 13))
    (h : x.inRange m = true) (h0 : v0.toNat ≤ (msBounds m).1) :
    MsBank.inRange m { x with x0 := v0 } = true :=
  inRange_write hm h h0 (le_of_inRange h).2.1

/-- A counter with a hue that steps only when the counter wraps. -/
theorem ite_addMod_le {p : Prop} [Decidable p] {v : BitVec 16} (h : v.toNat ≤ 255) (step : Nat) :
    (if p then addMod v step 256 else v).toNat ≤ 255 := by
  split
  · exact addMod_le _ _ (by decide)
  · exact h

theorem inRange_rainbow (c : Canvas) (h : c.x.inRange 0 = true) : (rainbow c).x.inRange 0 = true := by
  rw [rainbow_x]
  exact inRange_write0 (by decide) h (addMod_le _ _ (by decide))

theorem inRange_toggledFlash (c : Canvas) (h : c.x.inRange 2 = true) : (toggledFlash c).x.inRange 2 = true :=
  inRange_write0 (by decide) h (xor_one_le (le_of_inRange h).1)

theorem inRange_sideWipe (c : Canvas) (h : c.x.inRange 4 = true) : (sideWipe c).x.inRange 4 = true := by
  have h0 : c.x.x0.toNat ≤ 23 := (le_of_inRange h).1
  have hflag : (if c.x.x1 = 0 then (1 : BitVec 16) else 0).toNat ≤ 1 := by split <;> decide
  rw [sideWipe_x]
  split
  · exact inRange_write (by decide) h (Nat.zero_le _) hflag
  · exact inRange_write0 (by decide) h (show (c.x.x0 + 1).toNat ≤ 23 by bv_omega)

theorem inRange_laserSweep (c : Canvas) (h : c.x.inRange 5 = true) : (laserSweep c).x.inRange 5 = true := by
  have h1 : c.x.x1.toNat ≤ 0 := (le_of_inRange h).2.1
  have hkeep := addMod_toNat c.x.x1 0 (n := 256) (by decide)
  exact inRange_write (by decide) h (addMod_le _ _ (by decide)) (show (addMod c.x.x1 0 256).toNat ≤ 0 by omega)

theorem inRange_bounce (c : Canvas) (h : c.x.inRange 12 = true) : (bounce c).x.inRange 12 = true := by
  rw [inRange_iff] at h ⊢
  obtain ⟨h0, h1, -, h3, hb⟩ := h
  obtain ⟨h0', h1', hb'⟩ := bounceMove_legal h0 h1 (hb (.inl rfl))
  exact ⟨h0', h1', addMod_le _ _ (by decide), h3, fun _ => hb'⟩

theorem inRange_dualBounce (c : Canvas) (h : c.x.inRange 13 = true) : (dualBounce c).x.inRange 13 = true := by
  rw [inRange_iff] at h ⊢
  obtain ⟨h0, h1, h2, h3, hb⟩ := h
  obtain ⟨h0', h1', hb'⟩ := bounceMove_legal h0 h1 (hb (.inr rfl))
  exact ⟨h0', h1', h2, h3, fun _ => hb'⟩

theorem inRange_ripple (c : Canvas) (h : c.x.inRange 14 = true) : (ripple c).x.inRange 14 = true := by
  have h0 : c.x.x0.toNat ≤ 24 := (le_of_inRange h).1
  rw [ripple_x]
  split
  · exact inRange_write (by decide) h (Nat.zero_le _) (addMod_le _ _ (by decide))
  · exact inRange_write0 (by decide) h (show (c.x.x0 + 1).toNat ≤ 24 by bv_omega)

/-- New origins are positions of their rings, whatever they were (R257). -/
theorem inRange_drawOrigins (c : Canvas) (h2 : c.x.x2.toNat ≤ 12) (h3 : c.x.x3.toNat ≤ 255) :
    (drawOrigins c).x.inRange 17 = true := by
  obtain ⟨h0, h1, e2, e3⟩ := drawOrigins_x c
  exact inRange_of_le (by decide) h0 h1 (by rw [e2]; exact h2) (by rw [e3]; exact h3)

theorem inRange_shockwave (c : Canvas) (h : c.x.inRange 17 = true) : (shockwave c).x.inRange 17 = true := by
  simp only [shockwave]
  split
  · exact inRange_drawOrigins _ (Nat.zero_le _) (addMod_le _ _ (by decide))
  · rename_i hr
    obtain ⟨h0, h1, -, h3⟩ := le_of_inRange h
    exact inRange_of_le (by decide) h0 h1 (Nat.not_lt.1 hr) h3

theorem inRange_breathing (c : Canvas) (h : c.x.inRange 20 = true) : (breathing c).x.inRange 20 = true :=
  inRange_write (by decide) h (addMod_le _ _ (by decide)) (ite_addMod_le (le_of_inRange h).2.1 _)

theorem inRange_bassDrop (c : Canvas) (h : c.x.inRange 24 = true) : (bassDrop c).x.inRange 24 = true :=
  inRange_write (by decide) h (addMod_le _ _ (by decide)) (ite_addMod_le (le_of_inRange h).2.1 _)

theorem inRange_raveStrobe (c : Canvas) (h : c.x.inRange 25 = true) : (raveStrobe c).x.inRange 25 = true := by
  obtain ⟨h0, h1, -⟩ := le_of_inRange h
  rw [raveStrobe_x]
  exact inRange_write (by decide) h (xor_one_le h0) (ite_addMod_le h1 _)

/-- The render of every mode of the default table keeps the registers in the range of the mode (10_state.md R31). -/
theorem inRange_standardRender (cfg : Config.Params) (m : Fin numMode) (c : Canvas)
    (h : c.x.inRange m.val = true) : (standardRender cfg m c).x.inRange m.val = true := by
  match m, h with
  | 0, h => exact inRange_rainbow c h
  | 1, h => exact (solidColour_x c).symm ▸ h
  | 2, h => exact inRange_toggledFlash c h
  | 4, h => exact inRange_sideWipe c h
  | 5, h => exact inRange_laserSweep c h
  | 3, h | 6, h | 7, h | 8, h | 10, h =>
    exact inRange_write (by decide) h (addMod_le _ _ (by decide)) (addMod_le _ _ (by decide))
  | 9, h | 11, h | 19, h | 21, h | 22, h | 23, h | 26, h =>
    exact inRange_write0 (by decide) h (addMod_le _ _ (by decide))
  | 12, h => exact inRange_bounce c h
  | 13, h => exact inRange_dualBounce c h
  | 14, h => exact inRange_ripple c h
  | 15, h => exact (sparkle_x c).symm ▸ h
  | 16, h => exact (firefly_x c).symm ▸ h
  | 17, h => exact inRange_shockwave c h
  | 18, h => exact (barGraph_x c).symm ▸ h
  | 20, h => exact inRange_breathing c h
  | 24, h => exact inRange_bassDrop c h
  | 25, h => exact inRange_raveStrobe c h
  | ⟨k + 27, hk⟩, _ => exact absurd hk (by simp only [numMode]; omega)

/-- The mode part of RESET leaves a bank of zeros in the range of the mode: only shockwave writes registers
(44_mode_sequencer.md R213). -/
theorem inRange_standardReset (m : Fin numMode) (c : Canvas) (h : c.x = ⟨0, 0, 0, 0⟩) :
    (standardReset m c).x.inRange m.val = true := by
  unfold standardReset
  split
  · rename_i hm
    rw [hm]
    exact inRange_drawOrigins c (by simp [h]) (by simp [h])
  · rw [h]
    exact inRange_zero m.val

end Sys2Proof.Machine
end

section
/-! Legal states: what each action of a clock keeps of `State.Inv`, and the state after reset
(spec/10_state.md R26 to R35, R41, R48; spec/44_mode_sequencer.md R210 to R215). -/

namespace Sys2Proof.Machine

/-! ### MODE_TABLE in a legal state -/

/-- With the default table the render of a mode is its own procedure (44_mode_sequencer.md R222). -/
theorem renderMode_default {cfg : Config.Params} (ht : cfg.modeTable = modeTable) {m : Nat} (h : m < numMode)
    (c : Canvas) : renderMode cfg m c = standardRender cfg ⟨m, h⟩ c := by
  obtain ⟨b, hb, -⟩ := modeTable_entry h
  simp only [renderMode, ht, hb, renderOf]

/-- With the default table RESET blackens the buffer, clears the registers and does the mode's own part
(44_mode_sequencer.md R213, R222). -/
theorem resetMode_default {cfg : Config.Params} (ht : cfg.modeTable = modeTable) {m : Nat} (h : m < numMode)
    (c : Canvas) : resetMode cfg m c = standardReset ⟨m, h⟩ ((c.fill Rgb.black).withX ⟨0, 0, 0, 0⟩) := by
  obtain ⟨b, hb, -⟩ := modeTable_entry h
  simp only [resetMode, resetPartOf, ht, hb, resetOf]

/-- The delay of every mode, known or not, is in the document's range when those of the table are (R215, R218). -/
theorem delayOf_legal {cfg : Config.Params}
    (ht : ∀ d ∈ cfg.modeTable.toList, 10 ≤ d.delay.toNat ∧ d.delay.toNat ≤ 100) (m : Nat) :
    10 ≤ (delayOf cfg m).toNat ∧ (delayOf cfg m).toNat ≤ 100 := by
  unfold delayOf
  split
  · rename_i d hd
    obtain ⟨hm, rfl⟩ := Vector.getElem?_eq_some_iff.1 hd
    exact ht _ (Vector.mem_toList_iff.2 (Vector.getElem_mem hm))
  · exact cfg.fallbackDelay.property

/-! ### Words from a port and the opening of a clock -/

/-- Legality is a matter of the sequencer's part, of MODE and of the agenda. -/
theorem State.Inv.of_sequencerPart {s t : State} (hs : s.Inv) (h : t.sequencerPart = s.sequencerPart)
    (hm : t.mode.toNat < numMode) (ha : ∀ a ∈ t.agenda, a.isSequencerWord = false) : t.Inv := by
  have hpart : s.sequencerPart.Inv :=
    { hs with mode_legal := show 0 < numMode by decide, ports_only := fun a ha => absurd ha List.not_mem_nil }
  rw [← h] at hpart
  exact { hpart with mode_legal := hm, ports_only := ha }

theorem State.Inv.portEffect {s t : State} (hs : s.Inv) (h : PortEffect s t) : t.Inv :=
  hs.of_sequencerPart h.part (h.mode hs.mode_legal) (h.agenda ▸ hs.ports_only)

theorem hostWords_ports_only (w : Option OpWord) : ∀ a ∈ hostWords w, a.isSequencerWord = false := by
  cases w with
  | none => exact fun a h => absurd h List.not_mem_nil
  | some w => exact fun a h => List.mem_singleton.1 h ▸ rfl

theorem buttonWords_ports_only (pulsed : Bool) (b : Button) :
    ∀ a ∈ buttonWords pulsed b, a.isSequencerWord = false := by
  cases pulsed with
  | false => exact fun a h => absurd h List.not_mem_nil
  | true => exact fun a h => List.mem_singleton.1 h ▸ rfl

/-- No input of a clock forms a word of the sequencer (60_exceptions.md R336, R340). -/
theorem actions_ports_only (c : ClockIn) : ∀ a ∈ c.actions, a.isSequencerWord = false := by
  intro a ha
  unfold ClockIn.actions at ha
  split at ha
  · rw [List.mem_singleton.1 ha]
    rfl
  · simp only [List.mem_append, List.mem_singleton] at ha
    obtain ((((h | h) | h) | h) | h) | rfl := ha
    · exact hostWords_ports_only _ a h
    iterate 4 exact buttonWords_ports_only _ _ a h
    · rfl

theorem State.Inv.openClock {s : State} (hs : s.Inv) : s.openClock.Inv :=
  hs.of_sequencerPart rfl hs.mode_legal (actions_ports_only _)

/-! ### Reset -/

/-- Reset needs nothing of the state before but the parameters and the ports (10_state.md R48). -/
theorem inv_hardReset {s : State}
    (ht : ∀ d ∈ s.cfg.modeTable.toList, 10 ≤ d.delay.toNat ∧ d.delay.toNat ≤ 100)
    (ha : ∀ a ∈ s.agenda, a.isSequencerWord = false) : s.hardReset.Inv where
  mode_legal := show 0 < numMode by decide
  sMode_legal := show 0 < numMode by decide
  lastMode_legal := .inr rfl
  ms_legal := fun _ => inRange_zero 31
  table_delays := ht
  fb_canonical := rfl
  delay_le := Nat.zero_le _
  ports_only := ha
  idle := fun _ => ⟨rfl, rfl⟩
  in_flight := fun h => nomatch h
  frameDelay_legal := fun _ h => nomatch h
  log_whole := fun _ h => absurd h List.not_mem_nil

/-! ### The phases of FRAME -/

/-- RENDER starts with nothing in flight (44_mode_sequencer.md R210 steps 1 and 2). -/
theorem State.Inv.sampleConfig {s : State} (hs : s.Inv) (hq : s.seq ≠ .present) : s.sampleConfig.Inv :=
  { hs with
    sMode_legal := hs.mode_legal
    idle := fun _ => hs.idle hq
    in_flight := fun h => nomatch h }

/-- RESET(m) leaves the registers in the range of the mode (44_mode_sequencer.md R213). -/
theorem inRange_resetMode {cfg : Config.Params} (ht : cfg.modeTable = modeTable) {m : Nat} (h : m < numMode)
    (c : Canvas) : (resetMode cfg m c).x.inRange m = true := by
  rw [resetMode_default ht h]
  exact inRange_standardReset ⟨m, h⟩ _ rfl

/-- RENDER(m) keeps them there. -/
theorem inRange_renderMode {cfg : Config.Params} (ht : cfg.modeTable = modeTable) {m : Nat} (h : m < numMode)
    {c : Canvas} (hx : c.x.inRange m = true) : (renderMode cfg m c).x.inRange m = true := by
  rw [renderMode_default ht h]
  exact inRange_standardRender cfg ⟨m, h⟩ c hx

/-- After step 5 LASTMODE is the sampled mode (44_mode_sequencer.md R212). -/
@[simp] theorem resetIfChanged_lastMode (s : State) : s.resetIfChanged.lastMode = s.sMode := by
  rw [resetIfChanged_eq]
@[simp] theorem resetIfChanged_sMode (s : State) : s.resetIfChanged.sMode = s.sMode := by
  rw [resetIfChanged_eq]; rfl
@[simp] theorem resetIfChanged_sBright (s : State) : s.resetIfChanged.sBright = s.sBright := by
  rw [resetIfChanged_eq]; rfl

theorem State.Inv.resetIfChanged {s : State} (hs : s.Inv) (hq : s.seq ≠ .present) : s.resetIfChanged.Inv := by
  unfold State.resetIfChanged
  split
  · exact hs
  · exact { hs with
      lastMode_legal := .inl hs.sMode_legal
      ms_legal := fun ht => inRange_resetMode ht hs.sMode_legal s.canvas
      fb_canonical := (grown_resetMode s.cfg s.sMode.toNat s.canvas).1 hs.fb_canonical
      in_flight := fun h => absurd h hq }

/-- The state in which the hand-off of a rendered frame begins (44_mode_sequencer.md R210 steps 6 and 7). -/
theorem State.Inv.startPresent {s : State} (hs : s.Inv) (hl : s.lastMode = s.sMode) :
    (s.renderFrame.startPresent s.sBright).Inv :=
  { hs with
    ms_legal := fun ht => by
      have hx := hs.ms_legal ht
      rw [hl] at hx
      exact hl ▸ inRange_renderMode ht hs.sMode_legal (c := s.canvas) hx
    fb_canonical := (grown_renderMode s.cfg s.sMode.toNat s.canvas).1 hs.fb_canonical
    idle := fun h => absurd rfl h
    in_flight := fun _ => ⟨show 0 < numPix by decide, rfl, rfl, rfl⟩
    frameDelay_legal := fun d h => Option.some.inj h ▸ delayOf_legal hs.table_delays s.sMode.toNat }

/-- In PRESENT the pixels sent after `k` more are the first ones of the scaled buffer. -/
theorem State.Inv.handoff_append {s : State} (hs : s.Inv) (hq : s.seq = .present) (k : Nat) :
    s.handoff ++ (List.range k).map (fun j => s.outPixel (s.handoff.length + j)) =
      (List.range (s.handoff.length + k)).map s.outPixel := by
  obtain ⟨-, hsent, -⟩ := hs.in_flight hq
  nth_rewrite 1 [hsent]
  exact Machine.handoff_append s _ k

/-- A consumer takes no more than it is offered. -/
theorem takes_le (c : Consumer) (want : Nat) : c.takes want ≤ want := by
  cases c with
  | ready => exact Nat.le_refl want
  | accepts n => exact Nat.min_le_right n want

/-- The hand-off goes on, or the frame is logged whole with the delay its render returned
(43_frame_buffer.md R188; 70_reset_and_hazards.md R384). -/
theorem State.Inv.handOver {s : State} (hs : s.Inv) (hq : s.seq = .present) : s.handOver.Inv := by
  obtain ⟨hlt, -, hbright, hsome⟩ := hs.in_flight hq
  obtain ⟨d, hd⟩ := Option.isSome_iff_exists.1 hsome
  have hlegal := hs.frameDelay_legal d hd
  by_cases hall : s.consumer.takes (numPix - s.handoff.length) = numPix - s.handoff.length
  · rw [handOver_finish s hall, hs.handoff_append hq]
    exact { hs with
      delay_le := by simpa [hd] using hlegal.2
      idle := fun _ => ⟨rfl, rfl⟩
      in_flight := fun h => nomatch h
      frameDelay_legal := fun _ h => nomatch h
      log_whole := fun f hf => by
        obtain hf | hf := List.mem_append.1 hf
        · exact hs.log_whole f hf
        · rw [List.mem_singleton.1 hf]
          simp only [hd, Option.getD_some, List.length_map, List.length_range]
          exact ⟨by omega, hlegal⟩ }
  · have hle := takes_le s.consumer (numPix - s.handoff.length)
    rw [handOver_stall s hall, hs.handoff_append hq]
    exact { hs with
      idle := fun h => absurd hq h
      in_flight := fun _ => ⟨by simp only [List.length_map, List.length_range]; omega,
        by simp only [List.length_map, List.length_range]; rfl, hbright, hsome⟩ }

theorem State.Inv.completeRender {s : State} (hs : s.Inv) (hq : s.seq = .render) : s.completeRender.Inv := by
  have hne : s.seq ≠ .present := by rw [hq]; decide
  unfold State.completeRender
  split
  · have hr := (hs.resetIfChanged hne).startPresent (by simp)
    rw [resetIfChanged_sBright] at hr
    exact hr.handOver rfl
  · exact hs

/-! ### The sequencer's slot, the step -/

/-- A tick brings a delay that has not run out nearer to 0 (60_exceptions.md R345). -/
theorem State.Inv.countDown {s : State} (hs : s.Inv) (hd : s.delay ≠ 0) (tick : Bool) : (s.countDown tick).Inv := by
  cases tick with
  | false => exact hs
  | true =>
    have hle := hs.delay_le
    exact { hs with delay_le := show (s.delay - 1).toNat ≤ 100 by bv_omega }

/-- FRAME from the sequencer, when one is due, runs the Render Loop once (44_mode_sequencer.md R210, R211). -/
theorem exec_frame_due {s : State} (hq : s.seq = .wait) (hd : s.delay = 0) :
    exec .frame (s.accept .S) = .next (s.accept .S).runFrame := by
  have hdue : (s.accept .S).frameDue = true := by simp [State.frameDue, hq, hd]
  have heff : (if (s.accept .S).frameDue then (s.accept .S).runFrame else s.accept .S) = (s.accept .S).runFrame :=
    if_pos hdue
  exact (issued_of_may (op := .frame) (s := s.accept .S) rfl _).trans (congrArg Host.Outcome.next heff)

theorem State.Inv.runSequencer {tick : Bool} {s t : State} (hs : s.Inv)
    (h : s.runSequencer tick = .next t) : t.Inv := by
  cases hq : s.seq with
  | wait =>
    by_cases hd : s.delay = 0
    · rw [runSequencer_due tick hq hd] at h
      rw [exec_frame_due hq hd] at h
      cases h
      exact ((hs.portEffect (.accept .S s)).sampleConfig (by simp [hq])).completeRender rfl
    · rw [runSequencer_wait tick hq hd] at h
      cases h
      exact hs.countDown hd tick
  | render =>
    rw [runSequencer_render tick hq] at h
    cases h
    exact State.Inv.completeRender (s := { s with renderLeft := s.renderLeft - 1 }) { hs with } hq
  | present =>
    rw [runSequencer_present tick hq] at h
    cases h
    exact hs.handOver hq

theorem State.Inv.perform {a : Action} {s t : State} (hs : s.Inv) (ha : a.isSequencerWord = false)
    (h : State.perform a s = .next t) : t.Inv := by
  cases a with
  | reset =>
    cases h
    exact inv_hardReset hs.table_delays hs.ports_only
  | word iss w =>
    have hp : iss ≠ .S := by rintro rfl; cases ha
    exact hs.portEffect (runWord_portEffect hp h)
  | sequencer tick => exact hs.runSequencer h

/-- Settles O55, by the agenda: a clock opens, or its next action is taken off and performed. -/
theorem legalStatesStayLegal : Obligations.LegalStatesStayLegal := by
  intro s t hs h
  cases ha : s.agenda with
  | nil =>
    rw [step_nil ha] at h
    cases h
    exact hs.openClock
  | cons a rest =>
    rw [step_cons ha] at h
    have hports : ∀ b ∈ a :: rest, b.isSequencerWord = false := ha ▸ hs.ports_only
    have hrest : State.Inv { s with agenda := rest } :=
      { hs with ports_only := fun b hb => hports b (List.mem_cons_of_mem a hb) }
    exact hrest.perform (hports a List.mem_cons_self) h

/-- Settles O56: the reset state is what a reset makes of itself. -/
theorem resetStateIsLegal : Obligations.ResetStateIsLegal :=
  inv_hardReset (s := State.reset) (by decide) fun _ h => absurd h List.not_mem_nil

/-- Settles O10: both ways to reset are `State.hardReset` of a state, whose fields are read off. -/
theorem resetTakesTableValues : Obligations.ResetTakesTableValues := by
  refine ⟨fun s hs => ?_, rfl, fun u rest hu => ⟨_, step_reset hu, rfl, rfl, rfl, rfl, rfl, rfl, rfl⟩⟩
  obtain ⟨u, rfl⟩ : ∃ u : State, s = u.hardReset := by
    obtain rfl | ⟨u, rest, hu, hstep⟩ := hs
    · exact ⟨State.reset, rfl⟩
    · rw [step_reset hu] at hstep
      cases hstep
      exact ⟨_, rfl⟩
  exact ⟨rfl, rfl, rfl, rfl, rfl, rfl, fun _ => rfl, rfl, rfl, rfl, rfl⟩

end Sys2Proof.Machine
end

section
/-! The operation word read and written: each payload format is its fields side by side, so the decoder accepts the
words of the well-formed operations and no others (spec/30_encoding.md R80 to R86). -/

namespace Sys2Proof

/-! ### Fields -/

theorem Ring.ofBit_eq_iff (b : BitVec 1) (r : Ring) : Ring.ofBit b = r ↔ b = r.toBit := by
  cases r <;> revert b <;> decide

theorem Dir.ofBit_eq_iff (b : BitVec 1) (d : Dir) : Dir.ofBit b = d ↔ b = d.toBit := by
  cases d <;> revert b <;> decide

/-- Two neighbouring fields of a word hold `a` and `b` when the one field over both holds `a ++ b`. -/
theorem extractLsb'_eq_append_iff {w n m : Nat} (s : Nat) (p : BitVec w) (a : BitVec n) (b : BitVec m) :
    p.extractLsb' s (n + m) = a ++ b ↔ p.extractLsb' (s + m) n = a ∧ p.extractLsb' s m = b := by
  rw [← BitVec.extractLsb'_append_extractLsb'_eq_extractLsb' rfl]
  refine ⟨fun h => ⟨?_, ?_⟩, fun ⟨ha, hb⟩ => ha ▸ hb ▸ rfl⟩
  · simpa only [BitVec.extractLsb'_append_eq_left] using congrArg (BitVec.extractLsb' m n) h
  · simpa only [BitVec.extractLsb'_append_eq_right] using congrArg (BitVec.extractLsb' 0 m) h

/-- A word of two fields. -/
theorem append_eq_iff {n m : Nat} (a : BitVec n) (b : BitVec m) (p : BitVec (n + m)) :
    a ++ b = p ↔ p.extractLsb' m n = a ∧ p.extractLsb' 0 m = b := by
  simpa [BitVec.extractLsb'_eq_self, eq_comm] using extractLsb'_eq_append_iff 0 p a b

/-- A word of three fields. -/
theorem append_append_eq_iff {n m k : Nat} (a : BitVec n) (b : BitVec m) (c : BitVec k) (p : BitVec (n + m + k)) :
    a ++ b ++ c = p ↔ p.extractLsb' (k + m) n = a ∧ p.extractLsb' k m = b ∧ p.extractLsb' 0 k = c := by
  rw [append_eq_iff, extractLsb'_eq_append_iff, and_assoc]

/-- A word of four fields. -/
theorem append_append_append_eq_iff {n m k l : Nat} (a : BitVec n) (b : BitVec m) (c : BitVec k) (d : BitVec l)
    (p : BitVec (n + m + k + l)) :
    a ++ b ++ c ++ d = p ↔ p.extractLsb' (l + k + m) n = a ∧ p.extractLsb' (l + k) m = b ∧
      p.extractLsb' l k = c ∧ p.extractLsb' 0 l = d := by
  rw [append_eq_iff, extractLsb'_eq_append_iff, extractLsb'_eq_append_iff, and_assoc, and_assoc]

theorem Rgb.ofWord_eq_iff (w : BitVec 24) (c : Rgb) : Rgb.ofWord w = c ↔ w = c.toWord := by
  rw [eq_comm (a := w)]
  refine Iff.trans ?_ (append_append_eq_iff c.r c.g c.b w).symm
  cases c
  exact Iff.of_eq (Rgb.mk.injEq ..)

/-! ### The payload formats -/

theorem checkReserved_eq_ok {op : Op} {z : Bool} {i j : Instr} :
    checkReserved op z i = .ok j ↔ z = true ∧ i = j := by
  cases z <;> simp [checkReserved]

/-- A payload of an operation's format is read as the operand fields that, with zeros in the reserved bits, make it
up (30_encoding.md R82). -/
theorem decodePayload_eq_ok_iff (i : Instr) (p : BitVec 32) : decodePayload i.op p = .ok i ↔ i.payload = p := by
  cases i <;> refine checkReserved_eq_ok.trans ?_
  case nop | frame | rand8 => exact .trans (by simp) (eq_comm (a := p) (b := 0#32))
  case setmode v | setbri v | cfgupdB v | wrap48 v => exact .trans (by simp) (append_eq_iff 0#16 v p).symm
  case adjmode dir | adjbri dir =>
    exact .trans (by simp [Dir.ofBit_eq_iff]) (append_eq_iff 0#31 dir.toBit p).symm
  case cfgupdM m => exact .trans (by simp [and_comm]) (append_eq_iff m 0#16 p).symm
  case cfgupdMB m b => exact .trans (by simp) (append_eq_iff m b p).symm
  case unmap idx => exact .trans (by simp) (append_eq_iff 0#25 idx p).symm
  case gamma8 v | scale48 v | randn v | fadeall v | present v =>
    exact .trans (by simp) (append_eq_iff 0#24 v p).symm
  case scale8 v b => exact .trans (by simp) (append_append_eq_iff 0#16 v b p).symm
  case oscTri idx scale phase | oscSin idx scale phase | oscNoise idx scale phase =>
    exact .trans (by simp) (append_append_eq_iff idx scale phase p).symm
  case hsv2rgb a b c | huedist a b c => exact .trans (by simp) (append_append_append_eq_iff 0#8 a b c p).symm
  case mappix ring pos =>
    exact .trans (by simp [Ring.ofBit_eq_iff, and_assoc, and_left_comm])
      (append_append_append_eq_iff 0#23 ring.toBit 0#2 pos p).symm
  case cdist a b | cfwd a b =>
    exact .trans (by simp [and_assoc, and_left_comm]) (append_append_append_eq_iff 0#18 a 0#2 b p).symm
  case fill rgb => exact .trans (by simp [Rgb.ofWord_eq_iff]) (append_eq_iff 0#8 rgb.toWord p).symm
  case fillring ring rgb =>
    exact .trans (by simp [Ring.ofBit_eq_iff, Rgb.ofWord_eq_iff])
      (append_append_eq_iff 0#7 ring.toBit rgb.toWord p).symm
  case setpix idx rgb | addpix idx rgb =>
    exact .trans (by simp [Rgb.ofWord_eq_iff]) (append_append_eq_iff 0#1 idx rgb.toWord p).symm
  case getpix idx =>
    exact .trans (by simp [and_assoc, and_comm (a := p.extractLsb' 0 24 = 0#24)])
      (append_append_eq_iff 0#1 idx 0#24 p).symm
  case fadepix idx k =>
    exact .trans (by simp [and_assoc, and_left_comm]) (append_append_append_eq_iff 0#1 idx 0#16 k p).symm

/-- Every format is one check of reserved bits before an operation of the opcode. -/
theorem decodePayload_eq_checkReserved (op : Op) (p : BitVec 32) :
    ∃ (z : Bool) (i : Instr), i.op = op ∧ decodePayload op p = checkReserved op z i := by
  cases op <;> exact ⟨_, _, rfl, rfl⟩

theorem decodePayload_cases (op : Op) (p : BitVec 32) :
    (∃ i : Instr, i.op = op ∧ decodePayload op p = .ok i) ∨
    decodePayload op p = .error (.reservedField op) := by
  obtain ⟨z, i, hi, hd⟩ := decodePayload_eq_checkReserved op p
  cases z with
  | false => exact .inr hd
  | true => exact .inl ⟨i, hi, hd⟩

/-! ### The decoder -/

theorem encode_eq_iff {i : Instr} {w : OpWord} :
    encode i = w ↔ i.op.code = opcodeOf w ∧ i.payload = payloadOf w := by
  refine ⟨fun h => h ▸ ⟨(opcodeOf_append _ _).symm, (payloadOf_append _ _).symm⟩, fun ⟨hc, hp⟩ => ?_⟩
  rw [encode, hc, hp, append_of_word]

/-- An opcode that no operation has selects none (30_encoding.md R85). -/
theorem opOf_eq_none {c : Byte} (h : ∀ op : Op, op.code ≠ c) : opOf c = none :=
  Option.eq_none_iff_forall_ne_some.2 fun op hop => h op (code_of_opOf hop)

theorem decode_of_unassigned {w : OpWord} (h : ∀ op : Op, op.code ≠ opcodeOf w) :
    decode w = .error (.unassigned (opcodeOf w)) := by
  rw [decode, opOf_eq_none h]

/-- What the decoder answers for a word with an assigned opcode: the operation of that opcode whose encoding the
word is, or one of the two faults of its fields (30_encoding.md R86 b, c). -/
theorem decode_of_code {w : OpWord} {op : Op} (h : op.code = opcodeOf w) :
    (∃ i : Instr, i.op = op ∧ encode i = w ∧ i.wellFormed = true ∧ decode w = .ok i) ∨
    decode w = .error (.reservedField op) ∨ decode w = .error (.zeroDivisor op) := by
  have hop : opOf (opcodeOf w) = some op := h ▸ opOf_code op
  obtain ⟨i, rfl, hi⟩ | he := decodePayload_cases op (payloadOf w)
  · have hd : decode w = checkOperands i := by simp only [decode, hop, hi]
    have hw : encode i = w := encode_eq_iff.2 ⟨h, (decodePayload_eq_ok_iff i _).1 hi⟩
    by_cases hwf : i.wellFormed = true
    · exact .inl ⟨i, rfl, hw, hwf, hd.trans (if_pos hwf)⟩
    · exact .inr (.inr (hd.trans (if_neg hwf)))
  · exact .inr (.inl (by simp only [decode, hop, he]))

/-- The decoder and the encoder are each other's inverse on the well-formed operations (30_encoding.md R86). -/
theorem decode_eq_ok_iff {w : OpWord} {i : Instr} :
    decode w = .ok i ↔ encode i = w ∧ i.wellFormed = true := by
  constructor
  · intro hd
    by_cases ha : ∃ op : Op, op.code = opcodeOf w
    · obtain ⟨op, hop⟩ := ha
      obtain ⟨j, -, hw, hwf, hj⟩ | he | he := decode_of_code hop
      · rw [hj] at hd
        cases hd
        exact ⟨hw, hwf⟩
      all_goals
        rw [he] at hd
        cases hd
    · rw [decode_of_unassigned fun op hop => ha ⟨op, hop⟩] at hd
      cases hd
  · rintro ⟨rfl, hwf⟩
    simp [decode, encode, (decodePayload_eq_ok_iff i _).2 rfl, checkOperands, hwf]

/-- Settles O2, by `decode_eq_ok_iff` from right to left. -/
theorem decodeInvertsEncode : Obligations.DecodeInvertsEncode := fun _ hwf => decode_eq_ok_iff.2 ⟨rfl, hwf⟩

/-- Settles O3, by `decode_eq_ok_iff` from left to right. -/
theorem encodeInvertsDecode : Obligations.EncodeInvertsDecode := fun _ _ h => decode_eq_ok_iff.1 h

/-- Settles O1: each example word is the encoding of its operation. -/
theorem decodeReadsTableExamples : Obligations.DecodeReadsTableExamples := by
  refine ⟨?_, ?_, ?_, ?_, ?_, ?_, ?_, ?_, ?_, ?_⟩ <;> exact decode_eq_ok_iff.2 ⟨rfl, rfl⟩

end Sys2Proof
end

section
/-! What becomes of a word an issuer presents: it runs as the operation it decodes to, or it is dropped with ILLOP
or PRIV (spec/30_encoding.md R86, R87; spec/60_exceptions.md R340, R341), and which words the button port forms
(spec/30_encoding.md R92). -/

namespace Sys2Proof.Machine

/-! ### Dropped words -/

/-- A word of an opcode that no operation has is dropped with ILLOP, from any issuer (30_encoding.md R86 a). -/
theorem runWord_of_unassigned {w : OpWord} (h : ∀ op : Op, op.code ≠ opcodeOf w) (iss : Issuer) (s : State) :
    s.runWord iss w = .next ((s.accept iss).raise .illop) := runWord_error (decode_of_unassigned h) iss s

/-- A word with an assigned opcode runs as the operation it encodes, or is dropped: with ILLOP from an issuer that
may use the opcode, else with PRIV (30_encoding.md R86, R87). -/
theorem runWord_of_code {w : OpWord} {op : Op} (h : op.code = opcodeOf w) (iss : Issuer) (s : State) :
    (∃ i : Instr, i.op = op ∧ encode i = w ∧ i.wellFormed = true ∧ s.runWord iss w = exec i (s.accept iss)) ∨
    s.runWord iss w =
      .next (if mayIssue iss op then (s.accept iss).raise .illop else (s.accept iss).raise .priv) := by
  obtain ⟨i, hop, hw, hwf, hd⟩ | hd | hd := decode_of_code h
  · exact .inl ⟨i, hop, hw, hwf, runWord_ok hd iss s⟩
  · exact .inr (runWord_error hd iss s)
  · exact .inr (runWord_error hd iss s)

/-- An operation its issuer may not use is dropped with PRIV (60_exceptions.md R341). -/
theorem exec_of_not_mayIssue {i : Instr} {s : State} (h : mayIssue s.issuer i.op = false) :
    exec i s = .next (s.raise .priv) := by
  obtain ⟨effect, he, -⟩ := exec_issued i s
  rw [he, issued_of_not h]

/-- Settles O4: a word that no well-formed operation encodes does not run. -/
theorem illegalWordsDropped : Obligations.IllegalWordsDropped := by
  refine fun s iss w => ⟨fun h => runWord_of_unassigned h iss s, fun op hop hmay hnone => ?_⟩
  obtain ⟨i, -, hw, hwf, -⟩ | hdrop := runWord_of_code hop iss s
  · exact absurd hw (hnone i hwf)
  · rw [hdrop, if_pos hmay]
    rfl

/-- Settles O5: PRIV comes from the issuer check of the operation or, when the fields are illegal, from the drop. -/
theorem forbiddenIssuerDropped : Obligations.ForbiddenIssuerDropped := by
  refine ⟨fun s iss w op hop hmay => ?_, ?_, ?_, ?_⟩
  · obtain ⟨i, rfl, -, -, hrun⟩ | hdrop := runWord_of_code hop iss s
    · exact hrun.trans (exec_of_not_mayIssue hmay)
    · rw [hdrop, if_neg (by simp [hmay])]
      rfl
  all_goals
    intro op
    cases op <;> decide

/-! ### The next word -/

/-- Settles O6: the head of the agenda is performed, and it is a word that runs. -/
theorem stepRunsDecodedWord : Obligations.StepRunsDecodedWord := by
  intro s iss w rest i ha hd
  rw [step_cons ha, State.perform, runWord_ok hd]
  cases iss <;> rfl

/-- Every operation is the host's or the sequencer's (30_encoding.md R85). -/
theorem mayIssue_issuerFor {w : OpWord} {op : Op} (h : op.code = opcodeOf w) : mayIssue (issuerFor w) op = true := by
  rw [issuerFor, ← h, opOf_code]
  cases op <;> decide

theorem withFetchWord_toNat (s : State) (w : OpWord) :
    s.withFetchWord 40 w.toNat = { s with agenda := .word (issuerFor w) w :: s.agenda } := by
  have hw : BitVec.ofNat 40 (w.toNat % 2 ^ 40) = w := by
    rw [Nat.mod_eq_of_lt w.isLt, BitVec.ofNat_toNat, BitVec.setWidth_eq]
  simp only [State.withFetchWord, hw]

/-- Settles O7: the word stands at the head of the agenda, with the issuer the table allows. -/
theorem placedWordRunsNext : Obligations.PlacedWordRunsNext := by
  intro s i hwf
  have hd : decode (encode i) = .ok i := decode_eq_ok_iff.2 ⟨rfl, hwf⟩
  refine ⟨issuerFor (encode i), mayIssue_issuerFor (encode_eq_iff.1 rfl).1, ?_⟩
  rw [withFetchWord_toNat, step_cons rfl]
  exact runWord_ok hd _ s

/-! ### The button port -/

theorem word_mem_buttonWords {w : OpWord} {pulsed : Bool} {b : Button} :
    Action.word .B w ∈ buttonWords pulsed b ↔ w = b.word ∧ pulsed = true := by
  cases pulsed <;> simp [buttonWords]

theorem word_B_not_mem_hostWords (w : OpWord) (cmd : Option OpWord) : Action.word .B w ∉ hostWords cmd := by
  cases cmd <;> simp [hostWords]

/-- The words of issuer B in a clock are those of the pulsed buttons, and there are none under `rst`
(30_encoding.md R92; 70_reset_and_hazards.md R370). -/
theorem word_B_mem_actions {w : OpWord} {c : ClockIn} : Action.word .B w ∈ c.actions ↔ c.rst = false ∧
    (w = Button.modeInc.word ∧ c.modeInc = true ∨ w = Button.modeDec.word ∧ c.modeDec = true ∨
      w = Button.briInc.word ∧ c.briInc = true ∨ w = Button.briDec.word ∧ c.briDec = true) := by
  unfold ClockIn.actions
  cases c.rst <;> simp [word_mem_buttonWords, word_B_not_mem_hostWords]

/-- Settles O8: the four button words are the encodings of ADJMODE and ADJBRI either way. -/
theorem buttonPulsesFormTheirWords : Obligations.ButtonPulsesFormTheirWords := by
  refine ⟨fun c hr => ⟨fun hp => ?_, fun hp => ?_, fun hp => ?_, fun hp => ?_⟩,
    fun c w hw => (word_B_mem_actions.1 hw).2⟩
  · exact word_B_mem_actions.2 ⟨hr, .inl ⟨rfl, hp⟩⟩
  · exact word_B_mem_actions.2 ⟨hr, .inr (.inl ⟨rfl, hp⟩)⟩
  · exact word_B_mem_actions.2 ⟨hr, .inr (.inr (.inl ⟨rfl, hp⟩))⟩
  · exact word_B_mem_actions.2 ⟨hr, .inr (.inr (.inr ⟨rfl, hp⟩))⟩

end Sys2Proof.Machine
end

section
/-! The ring geometry operations: each answers one word, a function of its operand fields, and those functions are the
mapper with its inverse and the distances round the ring (spec/40_ring_geometry.md R110 to R116). -/

namespace Sys2Proof.Machine

/-! ### A pure operation's answer -/

/-- An operation of the host and the sequencer whose one effect is to answer `r` (30_encoding.md R84, R85). -/
theorem answers_of_exec {i : Instr} {s : State} {r : RspWord} (hiss : issuersOf i.op = [.H, .S])
    (he : exec i s = issued i.op s (s.respond r)) : s.answers i r := by
  have may {iss : Issuer} (hs : s.issuer = iss) (hmem : [Issuer.H, .S].contains iss = true) :
      exec i s = .next (s.respond r) := by
    rw [he, issued_of_may (by rw [mayIssue, hiss, hs, hmem])]
  exact ⟨fun h => by rw [may h rfl, respond_H r h], fun h => by rw [may h rfl, respond_S r h]⟩

theorem exec_mappix (ring : Ring) (pos : BitVec 6) (s : State) :
    exec (.mappix ring pos) s = issued .mappix s (s.respond ((mapPix ring pos).setWidth 32)) := rfl

theorem exec_cdist (a b : BitVec 6) (s : State) :
    exec (.cdist a b) s = issued .cdist s (s.respond (BitVec.ofNat 32 (cdist a b))) := rfl

theorem exec_cfwd (a b : BitVec 6) (s : State) :
    exec (.cfwd a b) s = issued .cfwd s (s.respond (BitVec.ofNat 32 (cfwd a b))) := rfl

theorem answers_mappix (ring : Ring) (pos : BitVec 6) (s : State) :
    s.answers (.mappix ring pos) (BitVec.ofNat 32 (mapPix ring pos).toNat) :=
  (BitVec.ofNat_toNat (m := 32) (mapPix ring pos)).symm ▸ answers_of_exec rfl (exec_mappix ring pos s)

theorem answers_unmap {idx : BitVec 7} {o : Option (Ring × BitVec 6)} (h : unmapPix idx = o) (s : State) :
    s.answers (.unmap idx) (unmapWord o) := h ▸ answers_of_exec rfl rfl

theorem answers_wrap48 (imm : BitVec 16) (s : State) : s.answers (.wrap48 imm) (BitVec.ofNat 32 (wrap48 imm)) :=
  answers_of_exec rfl rfl

theorem answers_cdist (a b : BitVec 6) (s : State) : s.answers (.cdist a b) (BitVec.ofNat 32 (cdist a b)) :=
  answers_of_exec rfl (exec_cdist a b s)

theorem answers_cfwd (a b : BitVec 6) (s : State) : s.answers (.cfwd a b) (BitVec.ofNat 32 (cfwd a b)) :=
  answers_of_exec rfl (exec_cfwd a b s)

/-! ### Positions count modulo 48 -/

/-- A geometry operation sees a position field only through its reduction (40_ring_geometry.md R110). -/
theorem reducePos_eq_of_toNat_eq {p q : BitVec 6} (h : q.toNat = p.toNat % 48) : reducePos p = reducePos q := by
  simp only [reducePos, ringSize]
  omega

theorem mapPix_congr {p q : BitVec 6} (h : reducePos p = reducePos q) (ring : Ring) :
    mapPix ring p = mapPix ring q := by simp only [mapPix, h]

theorem cfwd_congr {a b a' b' : BitVec 6} (ha : reducePos a = reducePos a') (hb : reducePos b = reducePos b') :
    cfwd a b = cfwd a' b' := by simp only [cfwd, ha, hb]

theorem cdist_congr {a b a' b' : BitVec 6} (ha : reducePos a = reducePos a') (hb : reducePos b = reducePos b') :
    cdist a b = cdist a' b' := by simp only [cdist, cfwd_congr ha hb]

/-! ### The mapper's inverse -/

theorem unmapPix_A {idx : BitVec 7} (h : idx.toNat ≤ 47) :
    unmapPix idx = some (.A, BitVec.ofNat 6 idx.toNat) := if_pos h

theorem unmapPix_B {idx : BitVec 7} (h : 48 ≤ idx.toNat) (h' : idx.toNat ≤ 95) :
    unmapPix idx = some (.B, BitVec.ofNat 6 (95 - idx.toNat)) := by
  rw [unmapPix, if_neg (by omega), if_pos h']

theorem unmapPix_none {idx : BitVec 7} (h : 96 ≤ idx.toNat) : unmapPix idx = none := by
  rw [unmapPix, if_neg (by omega), if_neg (by omega)]

/-- Fields side by side count as digits. -/
theorem toNat_append_eq_add {n m : Nat} (a : BitVec n) (b : BitVec m) :
    (a ++ b).toNat = a.toNat * 2 ^ m + b.toNat := by
  rw [BitVec.toNat_append, ← Nat.shiftLeft_add_eq_or_of_lt b.isLt, Nat.shiftLeft_eq]

/-- UNMAP's valid answer as a number (30_encoding.md R84). -/
theorem unmapWord_some (ring : Ring) {p : Nat} (h : p < 64) :
    unmapWord (some (ring, BitVec.ofNat 6 p)) = BitVec.ofNat 32 (2 ^ 31 + 2 ^ 8 * ring.toBit.toNat + p) := by
  apply BitVec.eq_of_toNat_eq
  have hring : ring.toBit.toNat < 2 := ring.toBit.isLt
  simp only [unmapWord, toNat_append_eq_add, BitVec.toNat_ofNat]
  omega

/-- UNMAP undoes MAPPIX on the logical positions (40_ring_geometry.md R116). -/
theorem unmapPix_mapPix (ring : Ring) {pos : BitVec 6} (h : pos.toNat ≤ 47) :
    unmapPix (mapPix ring pos) = some (ring, pos) := by
  cases ring with
  | A =>
    have hidx : (mapPix .A pos).toNat = pos.toNat := by rw [mapPix_A]; omega
    rw [unmapPix_A (by omega), hidx, BitVec.ofNat_toNat, BitVec.setWidth_eq]
  | B =>
    have hidx : 95 - (mapPix .B pos).toNat = pos.toNat := by rw [mapPix_B]; omega
    rw [unmapPix_B (by rw [mapPix_B]; omega) (by rw [mapPix_B]; omega), hidx, BitVec.ofNat_toNat,
      BitVec.setWidth_eq]

/-- MAPPIX undoes UNMAP on the pixels (40_ring_geometry.md R116). -/
theorem exists_mapPix_eq {idx : BitVec 7} (h : idx.toNat ≤ 95) :
    ∃ (ring : Ring) (pos : BitVec 6), unmapPix idx = some (ring, pos) ∧ mapPix ring pos = idx := by
  obtain hA | hB := Nat.lt_or_ge idx.toNat 48
  · refine ⟨.A, _, unmapPix_A (by omega), BitVec.eq_of_toNat_eq ?_⟩
    rw [mapPix_A, BitVec.toNat_ofNat]
    omega
  · refine ⟨.B, _, unmapPix_B hB h, BitVec.eq_of_toNat_eq ?_⟩
    rw [mapPix_B, BitVec.toNat_ofNat]
    omega

/-! ### The remainder and the distances -/

/-- WRAP48 answers the Euclidean remainder of the signed operand (40_ring_geometry.md R113). -/
theorem wrap48_spec (imm : BitVec 16) : wrap48 imm ≤ 47 ∧ (imm.toInt - (wrap48 imm : Int)) % 48 = 0 := by
  simp only [wrap48, sext16]
  omega

/-- The forward distance is the number of steps, below a full turn, that leads from `a` to `b`
(40_ring_geometry.md R115). -/
theorem cfwd_spec (a b : BitVec 6) : cfwd a b ≤ 47 ∧ (a.toNat + cfwd a b) % 48 = b.toNat % 48 := by
  simp only [cfwd, reducePos, ringSize]
  omega

/-- There and back is a full turn, or no step at all. -/
theorem cfwd_add_cfwd (a b : BitVec 6) :
    cfwd a b + cfwd b a = 48 ∨ (cfwd a b = 0 ∧ cfwd b a = 0) := by
  obtain ⟨hab, hto⟩ := cfwd_spec a b
  obtain ⟨hba, hback⟩ := cfwd_spec b a
  omega

/-- The case of equal positions in R114 is no exception to the rule. -/
theorem cdist_eq_min_sub (a b : BitVec 6) : cdist a b = min (cfwd a b) (48 - cfwd a b) := by
  unfold cdist
  split <;> omega

theorem cdist_eq_min_cfwd (a b : BitVec 6) : cdist a b = min (cfwd a b) (cfwd b a) := by
  rw [cdist_eq_min_sub]
  have := cfwd_add_cfwd a b
  omega

theorem cdist_comm (a b : BitVec 6) : cdist a b = cdist b a := by
  rw [cdist_eq_min_cfwd, cdist_eq_min_cfwd, min_comm]

/-! ### The obligations -/

/-- Settles O19: UNMAP's three ranges of index are the ranges of MAPPIX's answer on either ring and the rest. -/
theorem mapperAndItsInverse : Obligations.MapperAndItsInverse := by
  refine ⟨fun s pos => ⟨?_, ?_⟩, fun s idx => ⟨fun hA => ?_, fun hB hB' => ?_, fun hnone => ?_⟩,
    fun ring pos h => unmapPix_mapPix ring h, fun idx h => exists_mapPix_eq h⟩
  · exact mapPix_A pos ▸ answers_mappix .A pos s
  · exact mapPix_B pos ▸ answers_mappix .B pos s
  · have hans := answers_unmap (unmapPix_A hA) s
    rwa [unmapWord_some .A (by omega)] at hans
  · have hans := answers_unmap (unmapPix_B hB hB') s
    rwa [unmapWord_some .B (by omega)] at hans
  · exact answers_unmap (unmapPix_none hnone) s

/-- Settles O21: the remainder and the forward distance are the witnesses. -/
theorem wrapAndCircularDistances : Obligations.WrapAndCircularDistances := by
  refine ⟨fun s imm => ?_, fun s a b => ?_, fun a b => ⟨cdist_comm a b, cdist_eq_min_cfwd a b, cfwd_add_cfwd a b⟩⟩
  · obtain ⟨hle, hmod⟩ := wrap48_spec imm
    exact ⟨wrap48 imm, hle, hmod, answers_wrap48 imm s⟩
  · obtain ⟨hle, hmod⟩ := cfwd_spec a b
    exact ⟨cfwd a b, hle, hmod, answers_cfwd a b s, cdist_eq_min_sub a b ▸ answers_cdist a b s⟩

/-- Settles O20: each answer is a function of the reduced positions. -/
theorem positionFieldsReduceModulo48 : Obligations.PositionFieldsReduceModulo48 := by
  refine ⟨fun s p q ring other h => ?_, fun s ring => ?_⟩
  · have hpq : reducePos p = reducePos q := reducePos_eq_of_toNat_eq h
    refine ⟨?_, ?_, ?_, ?_, ?_⟩
    · rw [exec_mappix, exec_mappix, mapPix_congr hpq]
    · rw [exec_cdist, exec_cdist, cdist_congr hpq rfl]
    · rw [exec_cdist, exec_cdist, cdist_congr rfl hpq]
    · rw [exec_cfwd, exec_cfwd, cfwd_congr hpq rfl]
    · rw [exec_cfwd, exec_cfwd, cfwd_congr rfl hpq]
  · rw [exec_mappix, exec_mappix, mapPix_congr (reducePos_eq_of_toNat_eq (p := 50) (q := 2) rfl)]

end Sys2Proof.Machine
end

section
/-! The colour utility operations: each answers one word, a function of its operand fields, and those functions are the
gamma curve, the scaling primitive, the six-sector conversion and the hue distribution
(spec/41_color_utilities.md R130 to R138). -/

namespace Sys2Proof.Machine

/-! ### Answers of one byte -/

/-- A pure operation that answers a byte, the byte given by its value. -/
theorem answers_byte {i : Instr} {s : State} {b : Byte} (hiss : issuersOf i.op = [.H, .S])
    (he : exec i s = issued i.op s (s.respond (b.setWidth 32))) {n : Nat} (hn : b.toNat = n) :
    s.answers i (BitVec.ofNat 32 n) := by
  rw [← hn, BitVec.ofNat_toNat]
  exact answers_of_exec hiss he

theorem answers_gamma8 (v : Byte) (s : State) : s.answers (.gamma8 v) ((lookup gammaLut v).setWidth 32) :=
  answers_of_exec rfl rfl

theorem exec_huedist (start n i : Byte) (s : State) :
    exec (.huedist start n i) s =
      issued .huedist s (if n = 0 then s.raise .illop else s.respond ((hueDist start n i).setWidth 32)) := rfl

theorem answers_scale48 (v : Byte) (s : State) : s.answers (.scale48 v) (BitVec.ofNat 32 (scale48 v)) :=
  answers_of_exec rfl rfl

/-! ### The gamma curve -/

/-- `g` is `255 * (v / 255) ^ 2.2` rounded to the nearest integer, raised to the fifth power and cleared of fractions
(41_color_utilities.md R131). -/
def GammaNearest (v g : Byte) : Prop :=
  (2 * (g.toNat : Int) - 1) ^ 5 * 255 ^ 11 < 510 ^ 5 * (v.toNat : Int) ^ 11 ∧
  510 ^ 5 * (v.toNat : Int) ^ 11 < (2 * (g.toNat : Int) + 1) ^ 5 * 255 ^ 11

/-- The 256 entries of the table against the curve. -/
theorem gammaNearest_lookup : ∀ v : Byte, GammaNearest v (lookup gammaLut v) := by
  unfold GammaNearest
  decide +kernel

/-! ### The scaling primitive -/

theorem sc255_toNat (a b : Byte) : (sc255 a b).toNat = a.toNat * b.toNat / 255 := by
  have hprod : a.toNat * b.toNat ≤ 255 * 255 := Nat.mul_le_mul (by omega) (by omega)
  rw [sc255, BitVec.toNat_ofNat]
  omega

theorem sc255_comm (a b : Byte) : sc255 a b = sc255 b a := by rw [sc255, sc255, Nat.mul_comm]

theorem sc255_full (a : Byte) : sc255 a 255 = a :=
  BitVec.eq_of_toNat_eq ((sc255_toNat a 255).trans (Nat.mul_div_cancel a.toNat (by decide)))

theorem sc255_zero (a : Byte) : sc255 a 0 = 0 :=
  BitVec.eq_of_toNat_eq ((sc255_toNat a 0).trans (by simp))

theorem sc255_mono {a a' b b' : Byte} (ha : a ≤ a') (hb : b ≤ b') : sc255 a b ≤ sc255 a' b' := by
  rw [BitVec.le_def, sc255_toNat, sc255_toNat]
  exact Nat.div_le_div_right (Nat.mul_le_mul (BitVec.le_def.1 ha) (BitVec.le_def.1 hb))

/-- Scaling by at most the full level never makes a channel brighter. -/
theorem sc255_le_left (a b : Byte) : sc255 a b ≤ a := by
  have hfull : b ≤ 255 := BitVec.le_def.2 (Nat.le_of_lt_succ b.isLt)
  calc sc255 a b ≤ sc255 a 255 := sc255_mono (BitVec.le_refl a) hfull
    _ = a := sc255_full a

theorem sc255_le_right (a b : Byte) : sc255 a b ≤ b := sc255_comm a b ▸ sc255_le_left b a

/-- The shift-and-add form of the quotient, for every product of two bytes (41_color_utilities.md R132). -/
theorem div_255_eq_shift_add {x : Nat} (h : x ≤ 65025) : x / 255 = (x + 1 + x / 256) / 256 := by omega

/-! ### The six-sector conversion -/

theorem full_sub_toNat (b : Byte) : (255 - b).toNat = 255 - b.toNat := by
  rw [BitVec.toNat_sub_of_le (BitVec.le_def.2 (Nat.le_of_lt_succ b.isLt))]
  rfl

/-- The level `p`, and with the saturation scaled, the levels `q` and `t`. -/
theorem sc255_full_sub_toNat (v b : Byte) : (sc255 v (255 - b)).toNat = v.toNat * (255 - b.toNat) / 255 := by
  rw [sc255_toNat, full_sub_toNat]

/-- The position inside the sector, as a byte. -/
def sectorPos (h : Byte) : Byte := BitVec.ofNat 8 (6 * h.toNat % 256)

theorem sectorPos_toNat (h : Byte) : (sectorPos h).toNat = 6 * h.toNat % 256 := by
  rw [sectorPos, BitVec.toNat_ofNat]
  omega

/-- The conversion in a known sector (41_color_utilities.md R133). -/
theorem hsv2rgb_of_sector {h : Byte} {k : Nat} (hk : 6 * h.toNat / 256 = k) (sat v : Byte) :
    hsv2rgb h sat v = sectorRgb k v (sc255 v (255 - sat)) (sc255 v (255 - sc255 sat (sectorPos h)))
      (sc255 v (255 - sc255 sat (255 - sectorPos h))) := hk ▸ rfl

/-- The three channels as digits to base 256. -/
theorem toWord_setWidth (c : Rgb) :
    c.toWord.setWidth 32 = BitVec.ofNat 32 (65536 * c.r.toNat + 256 * c.g.toNat + c.b.toNat) := by
  apply BitVec.eq_of_toNat_eq
  simp only [Rgb.toWord, BitVec.toNat_setWidth, toNat_append_eq_add, BitVec.toNat_ofNat]
  omega

theorem answers_hsv2rgb (h sat v : Byte) (s : State) :
    s.answers (.hsv2rgb h sat v) (BitVec.ofNat 32 (65536 * (hsv2rgb h sat v).r.toNat +
      256 * (hsv2rgb h sat v).g.toNat + (hsv2rgb h sat v).b.toNat)) :=
  toWord_setWidth (hsv2rgb h sat v) ▸ answers_of_exec rfl rfl

/-! ### The hue distribution -/

theorem answers_huedist {n : Byte} (hn : n ≠ 0) (start i : Byte) (s : State) :
    s.answers (.huedist start n i) (BitVec.ofNat 32 (hueDist start n i).toNat) :=
  answers_byte rfl ((exec_huedist start n i s).trans (by rw [if_neg hn]; rfl)) rfl

/-- A ring of no pixels is dropped with ILLOP, from any issuer that may use the opcode (30_encoding.md R86). -/
theorem exec_huedist_zero {s : State} (h : s.issuer ≠ .B) (start i : Byte) :
    exec (.huedist start 0 i) s = .next (s.raise .illop) := by
  have hmay : mayIssue s.issuer .huedist = true := by
    cases hiss : s.issuer with
    | H => rfl
    | B => exact absurd hiss h
    | S => rfl
  rw [exec_huedist, if_pos rfl, issued_of_may hmay]

theorem hueDist_toNat (start n i : Byte) :
    (hueDist start n i).toNat = (start.toNat + 256 * i.toNat / n.toNat) % 256 := BitVec.toNat_ofNat _ _

/-- One pixel moves hue and error numerator together by exactly 256 parts of `n`, and leaves the error below one
hue unit (41_color_utilities.md R135). -/
theorem hueStep_exact {n err : Nat} (herr : err < n) (hue : Nat) :
    (hueStep n (hue, err)).1 * n + (hueStep n (hue, err)).2 = hue * n + err + 256 ∧
    (hueStep n (hue, err)).2 < n := by
  have hrem : 256 % n < n := Nat.mod_lt _ (by omega)
  have hbase : 256 / n * n + 256 % n = 256 := Nat.div_add_mod' 256 n
  simp only [hueStep]
  split <;> simp only [Nat.add_mul] <;> omega

/-- No error is lost over `i` pixels. -/
theorem hueIteration_exact {n : Nat} (hn : 0 < n) (start i : Nat) :
    (hueIteration start n i).1 * n + (hueIteration start n i).2 = start * n + 256 * i ∧
    (hueIteration start n i).2 < n := by
  induction i with
  | zero => exact ⟨rfl, hn⟩
  | succ i ih =>
    obtain ⟨hsum, herr⟩ := ih
    obtain ⟨hstep, herr'⟩ := hueStep_exact herr (hueIteration start n i).1
    exact ⟨hstep.trans (by omega), herr'⟩

/-- The iteration reaches the closed form (41_color_utilities.md R135). -/
theorem hueIteration_eq {n : Nat} (hn : 0 < n) (start i : Nat) :
    (hueIteration start n i).1 = start + 256 * i / n := by
  obtain ⟨hsum, herr⟩ := hueIteration_exact hn start i
  calc (hueIteration start n i).1
      = ((hueIteration start n i).1 * n + (hueIteration start n i).2) / n := by
        rw [Nat.mul_comm, Nat.mul_add_div hn, Nat.div_eq_of_lt herr, Nat.add_zero]
    _ = start + 256 * i / n := by rw [hsum, Nat.mul_comm start, Nat.mul_add_div hn]

/-- Over this hardware's ring the offsets are `5 * i + i / 3` (41_color_utilities.md R135, R136). -/
theorem hueDist_48_toNat (start i : Byte) :
    (hueDist start 48 i).toNat = (start.toNat + 5 * i.toNat + i.toNat / 3) % 256 := by
  have hoffset : 256 * i.toNat / 48 = 5 * i.toNat + i.toNat / 3 := by omega
  rw [hueDist_toNat, show (48 : Byte).toNat = 48 from rfl, hoffset, Nat.add_assoc]

/-- The gap from one pixel to the next is 5, and one more at every third pixel (41_color_utilities.md R136). -/
theorem hueDist_48_gap (start : Byte) {i gap : Byte} (hi : i.toNat ≤ 47)
    (hgap : gap.toNat = 5 + ((i.toNat + 1) / 3 - i.toNat / 3)) :
    hueDist start 48 (i + 1) - hueDist start 48 i = gap := by
  have hsucc : (i + 1).toNat = i.toNat + 1 := BitVec.toNat_add_of_lt (y := 1) (show i.toNat + 1 < 2 ^ 8 by omega)
  apply BitVec.eq_of_toNat_eq
  rw [BitVec.toNat_sub, hueDist_48_toNat, hueDist_48_toNat, hsucc]
  omega

/-! ### The obligations -/

/-- Settles O22: the table's entry is the rounded value. -/
theorem gammaRoundsToNearest : Obligations.GammaRoundsToNearest :=
  fun s v => ⟨lookup gammaLut v, answers_gamma8 v s, gammaNearest_lookup v⟩

/-- Settles O23: every law follows from the value `a * b / 255`. -/
theorem scalingPrimitiveLaws : Obligations.ScalingPrimitiveLaws :=
  ⟨sc255_toNat, fun a => ⟨sc255_full a, sc255_zero a, (sc255_comm 255 a).trans (sc255_full a)⟩,
    fun _ _ _ _ ha hb => sc255_mono ha hb, fun a b => ⟨sc255_le_left a b, sc255_le_right a b⟩,
    fun _ h => div_255_eq_shift_add h⟩

/-- Settles O24: each range of hues is one sector of `6 * h`, and the levels of the sector are those of the
statement. -/
theorem hsvSixSectors : Obligations.HsvSixSectors := by
  intro s h sat v f p q t
  have hp : (sc255 v (255 - sat)).toNat = p := sc255_full_sub_toNat v sat
  have hq : (sc255 v (255 - sc255 sat (sectorPos h))).toNat = q := by
    rw [sc255_full_sub_toNat, sc255_toNat, sectorPos_toNat]
  have ht : (sc255 v (255 - sc255 sat (255 - sectorPos h))).toNat = t := by
    rw [sc255_full_sub_toNat, sc255_full_sub_toNat, sectorPos_toNat]
  refine ⟨_, _, _, answers_hsv2rgb h sat v s, fun _ => ?_, fun _ _ => ?_, fun _ _ => ?_, fun _ _ => ?_,
    fun _ _ => ?_, fun _ => ?_⟩
  · rw [hsv2rgb_of_sector (k := 0) (by omega), ← hp, ← ht]; rfl
  · rw [hsv2rgb_of_sector (k := 1) (by omega), ← hp, ← hq]; rfl
  · rw [hsv2rgb_of_sector (k := 2) (by omega), ← hp, ← ht]; rfl
  · rw [hsv2rgb_of_sector (k := 3) (by omega), ← hp, ← hq]; rfl
  · rw [hsv2rgb_of_sector (k := 4) (by omega), ← hp, ← ht]; rfl
  · rw [hsv2rgb_of_sector (k := 5) (by omega), ← hp, ← hq]; rfl

/-- Settles O25: the iteration loses no error, so its hue is the closed form; the gaps follow from the offsets
`5 * i + i / 3`. -/
theorem hueDistributionIsIteration : Obligations.HueDistributionIsIteration := by
  refine ⟨fun s start n i hn => ?_, fun s start i h => exec_huedist_zero h start i,
    fun start i hi => ⟨fun h => ?_, fun h => ?_⟩, fun start => ⟨?_, ?_⟩⟩
  · have hpos : 0 < n.toNat := Nat.pos_of_ne_zero fun h => hn (BitVec.eq_of_toNat_eq h)
    have hans := answers_huedist hn start i s
    rw [hueDist_toNat] at hans
    exact ⟨(hueIteration_eq hpos start.toNat i.toNat).symm ▸ hans, hans⟩
  · exact hueDist_48_gap start hi (show 5 = _ by omega)
  · exact hueDist_48_gap start hi (show 6 = _ by omega)
  · exact BitVec.eq_of_toNat_eq ((hueDist_48_toNat start 0).trans (Nat.mod_eq_of_lt start.isLt))
  · exact BitVec.eq_of_toNat_eq ((hueDist_48_toNat start 48).trans
      (show (start.toNat + 240 + 16) % 256 = start.toNat by omega))

/-- Settles O26: SCALE8 is the scaling primitive and inherits its bound. -/
theorem scalesDivideDown : Obligations.ScalesDivideDown := by
  intro s v b
  have hle : v.toNat * b.toNat / 255 ≤ v.toNat := sc255_toNat v b ▸ BitVec.le_def.1 (sc255_le_left v b)
  have hlt : v.toNat < 256 := v.isLt
  exact ⟨answers_byte rfl rfl (sc255_toNat v b), hle, answers_scale48 v s, by omega⟩

end Sys2Proof.Machine
end

section
/-! The oscillators and the draws: the three waveforms are functions of the low 16 bits of `idx * scale + phase`, a draw
moves the random source on by one word (spec/42_oscillators.md R150 to R162). -/

namespace Sys2Proof.Machine

/-! ### The argument of an oscillator -/

/-- The low byte of the argument, which is all that the triangle and the sine see (42_oscillators.md R150). -/
theorem oscArg_mod_256 (idx scale : Byte) (phase : BitVec 16) :
    oscArg idx scale phase % 256 = (idx.toNat * scale.toNat + phase.toNat) % 256 :=
  Nat.mod_mod_of_dvd _ (by decide)

/-! ### The triangle -/

theorem triWave_rising {arg : Nat} (h : arg % 256 ≤ 127) :
    (triWave arg).toNat = 2 * (arg % 256) + arg % 256 / 64 := by
  simp only [triWave, if_pos h, BitVec.toNat_ofNat]
  omega

theorem triWave_falling {arg : Nat} (h : 128 ≤ arg % 256) :
    (triWave arg).toNat = 2 * (255 - arg % 256) + (255 - arg % 256) / 64 := by
  simp only [triWave, if_neg (show ¬arg % 256 ≤ 127 by omega), BitVec.toNat_ofNat]
  omega

/-- OSC.TRI answers the triangle of the low byte, given by its value. -/
theorem answers_oscTri (idx scale : Byte) (phase : BitVec 16) (s : State) {n : Nat}
    (h : (triWave (oscArg idx scale phase)).toNat = n) :
    s.answers (.oscTri idx scale phase) (BitVec.ofNat 32 n) := answers_byte rfl rfl h

/-! ### The tables -/

theorem lookup_ofNat (t : Vector Byte 256) (n : Nat) : lookup t (BitVec.ofNat 8 n) = t[Fin.ofNat 256 n] := rfl

/-- A point on the straight line from `a` to `b` lies between them. -/
theorem weightedMean_between (a b : Nat) {f n : Nat} (hf : f < n) :
    min a b ≤ (a * (n - f) + b * f) / n ∧ (a * (n - f) + b * f) / n ≤ max a b := by
  have hsplit (k : Nat) : k * (n - f) + k * f = k * n := by rw [← Nat.mul_add, Nat.sub_add_cancel hf.le]
  have hlow : min a b * n ≤ a * (n - f) + b * f := hsplit (min a b) ▸
    Nat.add_le_add (Nat.mul_le_mul_right _ (Nat.min_le_left a b)) (Nat.mul_le_mul_right _ (Nat.min_le_right a b))
  have hhigh : a * (n - f) + b * f ≤ max a b * n := hsplit (max a b) ▸
    Nat.add_le_add (Nat.mul_le_mul_right _ (Nat.le_max_left a b)) (Nat.mul_le_mul_right _ (Nat.le_max_right a b))
  have hn : 0 < n := Nat.zero_lt_of_lt hf
  exact ⟨(Nat.le_div_iff_mul_le hn).2 hlow, (Nat.div_le_div_right hhigh).trans_eq (Nat.mul_div_cancel _ hn)⟩

/-- Value noise in terms of the two lattice bytes: the mean does not leave the byte range (42_oscillators.md R157). -/
theorem noiseWave_toNat (lut : Vector Byte 256) (arg : Nat) : (noiseWave lut arg).toNat =
    ((lut[Fin.ofNat 256 (arg / 256)]).toNat * (256 - arg % 256) +
      (lut[Fin.ofNat 256 (arg / 256 + 1)]).toNat * (arg % 256)) / 256 := by
  simp only [noiseWave, lookup_ofNat, BitVec.toNat_ofNat]
  generalize lut[Fin.ofNat 256 (arg / 256)] = a
  generalize lut[Fin.ofNat 256 (arg / 256 + 1)] = b
  have hle := (weightedMean_between a.toNat b.toNat (Nat.mod_lt arg (show 256 > 0 by decide))).2
  exact Nat.mod_eq_of_lt (hle.trans_lt (max_lt a.isLt b.isLt))

/-! ### The draws -/

/-- The draw an operation takes is the next of the source (42_oscillators.md R160). -/
theorem canvas_draw16 (s : State) : s.canvas.draw16.1 = s.drawAhead 0 := rfl

theorem rand8_toNat (c : Canvas) : c.rand8.1.toNat = c.draw16.1.toNat / 256 := by
  simp only [Canvas.rand8, BitVec.toNat_ofNat]
  omega

theorem randN_toNat (n : Byte) (c : Canvas) : (c.randN n).1.toNat = c.draw16.1.toNat * n.toNat / 65536 := by
  have hle : c.draw16.1.toNat * n.toNat ≤ 65535 * n.toNat := Nat.mul_le_mul_right _ (by omega)
  simp only [Canvas.randN, BitVec.toNat_ofNat]
  omega

/-- What a draw operation of the sequencer does: the byte to the sequencer, the source one word on. -/
theorem respond_draw {s : State} (h : s.issuer = .S) {b : Byte} {n : Nat} (hn : b.toNat = n) :
    (s.withCanvas s.canvas.draw16.2).respond (b.setWidth 32) =
      { s with sRes := some (BitVec.ofNat 32 n), draws := s.draws.tail, drawPos := s.drawPos + 1 } := by
  rw [respond_S _ (by exact h), ← hn, BitVec.ofNat_toNat]
  rfl

theorem exec_rand8 {s : State} (h : s.issuer = .S) :
    exec .rand8 s = .next ((s.withCanvas s.canvas.draw16.2).respond (s.canvas.rand8.1.setWidth 32)) :=
  issued_of_may (by rw [h]; rfl) _

theorem exec_randn {s : State} (h : s.issuer = .S) (n : Byte) : exec (.randn n) s = .next
    (if n = 0 then s.raise .illop
     else (s.withCanvas s.canvas.draw16.2).respond ((s.canvas.randN n).1.setWidth 32)) :=
  issued_of_may (by rw [h]; rfl) _

/-! ### The obligations -/

/-- Settles O29: both operations answer a function of one draw; RANDN 0 is dropped before it draws. -/
theorem drawsAnswerScaledWords : Obligations.DrawsAnswerScaledWords := by
  refine fun s h => ⟨?_, fun n hn => ⟨?_, randN_toNat n s.canvas ▸ randN_lt n s.canvas hn⟩, ?_⟩
  · rw [exec_rand8 h, respond_draw h (rand8_toNat s.canvas), canvas_draw16]
  · rw [exec_randn h, if_neg hn, respond_draw h (randN_toNat n s.canvas), canvas_draw16]
  · rw [exec_randn h, if_pos rfl]
    rfl

/-- Settles O27: the four segments are the two slopes, each with and without the 1 that fills the low bit. -/
theorem triangleSegments : Obligations.TriangleSegments := by
  intro s idx scale phase x
  have hx : oscArg idx scale phase % 256 = x := oscArg_mod_256 idx scale phase
  refine ⟨fun h => ?_, fun h h' => ?_, fun h h' => ?_, fun h => ?_⟩
  · exact answers_oscTri idx scale phase s ((triWave_rising (by omega)).trans (by omega))
  · exact answers_oscTri idx scale phase s ((triWave_rising (by omega)).trans (by omega))
  · exact answers_oscTri idx scale phase s ((triWave_falling (by omega)).trans (by omega))
  · exact answers_oscTri idx scale phase s ((triWave_falling (by omega)).trans (by omega))

/-- Settles O28: the tables are read at the argument, and the interpolation is a weighted mean. -/
theorem sineAndNoiseReadTables : Obligations.SineAndNoiseReadTables := fun s idx scale phase =>
  ⟨answers_of_exec rfl rfl, answers_byte rfl rfl (noiseWave_toNat s.cfg.hashLut (oscArg idx scale phase)),
    weightedMean_between _ _ (Nat.mod_lt _ (by decide))⟩

end Sys2Proof.Machine
end

section
/-! Frames that take no draw: every operation but RAND8 and RANDN commutes with exchanging the random source, and so
do the modes that use no other (spec/42_oscillators.md R160; spec/70_reset_and_hazards.md R386). -/

namespace Sys2Proof.Machine

/-! ### Another random source on a canvas -/

/-- The canvas with other draws to come and from another position of the stream. -/
def Canvas.withSource (draws : List (BitVec 16)) (pos : Nat) (c : Canvas) : Canvas :=
  { c with draws := draws, drawPos := pos }

section
variable (ds : List (BitVec 16)) (n : Nat) (c : Canvas)

@[simp] theorem withSource_x : (c.withSource ds n).x = c.x := rfl

@[simp] theorem withX_withSource (x : MsBank) : (c.withSource ds n).withX x = (c.withX x).withSource ds n := rfl

@[simp] theorem fill_withSource (rgb : Rgb) : (c.withSource ds n).fill rgb = (c.fill rgb).withSource ds n := by
  simp only [Canvas.fill, Canvas.withSource]

@[simp] theorem fadeAll_withSource (k : Byte) :
    (c.withSource ds n).fadeAll k = (c.fadeAll k).withSource ds n := by
  simp only [Canvas.fadeAll, Canvas.withSource]

/-- A choice between two canvases of one source. -/
@[simp] theorem ite_withSource (d : Canvas) (p : Prop) [Decidable p] :
    (if p then c.withSource ds n else d.withSource ds n) = (if p then c else d).withSource ds n :=
  (apply_ite (Canvas.withSource ds n) p c d).symm

theorem updatePix_withSource (idx : BitVec 7) (f : Rgb → Rgb) :
    (c.withSource ds n).updatePix idx f = (c.updatePix idx f).withSource ds n := by
  unfold Canvas.updatePix
  split <;> rfl

@[simp] theorem setPix_withSource (idx : BitVec 7) (rgb : Rgb) :
    (c.withSource ds n).setPix idx rgb = (c.setPix idx rgb).withSource ds n := updatePix_withSource ds n c idx _

@[simp] theorem addPix_withSource (idx : BitVec 7) (rgb : Rgb) :
    (c.withSource ds n).addPix idx rgb = (c.addPix idx rgb).withSource ds n := updatePix_withSource ds n c idx _

@[simp] theorem plot2_withSource (p : Nat) (rgb : Rgb) :
    (c.withSource ds n).plot2 p rgb = (c.plot2 p rgb).withSource ds n := by simp [Canvas.plot2]

@[simp] theorem add2_withSource (p : Nat) (rgb : Rgb) :
    (c.withSource ds n).add2 p rgb = (c.add2 p rgb).withSource ds n := by simp [Canvas.add2]

/-- A loop whose rounds take no draw takes none. -/
theorem loop_withSource {k : Nat} {body : Nat → Canvas → Canvas}
    (h : ∀ p e, body p (e.withSource ds n) = (body p e).withSource ds n) :
    loop k body (c.withSource ds n) = (loop k body c).withSource ds n := by
  induction k with
  | zero => rfl
  | succ k ih => rw [loop_succ, loop_succ, ih, h]

/-! ### The modes without draws

A mode is put together from operations that commute with the exchange, and it finds the same registers either way. Where
it branches on a register, the read is rewritten first: it also stands inside the test's decision, where `simp` does not
rewrite it. -/

theorem rotate_withSource (m w step : Nat) (bg : Byte) (invert : Bool) (fixed : Option Rgb) (hstep : Nat) :
    rotate m w step bg invert fixed hstep (c.withSource ds n) =
      (rotate m w step bg invert fixed hstep c).withSource ds n := by
  simp [rotate, loop_withSource]

theorem rainbow_withSource : rainbow (c.withSource ds n) = (rainbow c).withSource ds n := by
  simp [rainbow, loop_withSource]

theorem toggledFlash_withSource : toggledFlash (c.withSource ds n) = (toggledFlash c).withSource ds n := by
  unfold toggledFlash
  rw [withSource_x]
  simp

theorem sideWipe_withSource : sideWipe (c.withSource ds n) = (sideWipe c).withSource ds n := by
  unfold sideWipe
  rw [withSource_x]
  simp

theorem sinelon_withSource (cfg : Config.Params) :
    sinelon cfg (c.withSource ds n) = (sinelon cfg c).withSource ds n := by simp [sinelon]

theorem juggle_withSource (cfg : Config.Params) :
    juggle cfg (c.withSource ds n) = (juggle cfg c).withSource ds n := by simp [juggle, loop_withSource]

theorem comets_withSource : comets (c.withSource ds n) = (comets c).withSource ds n := by simp [comets]

theorem runningLight_withSource : runningLight (c.withSource ds n) = (runningLight c).withSource ds n := by
  simp [runningLight, loop_withSource]

theorem bounce_withSource : bounce (c.withSource ds n) = (bounce c).withSource ds n := by simp [bounce]

theorem dualBounce_withSource : dualBounce (c.withSource ds n) = (dualBounce c).withSource ds n := by
  simp [dualBounce]

theorem ripple_withSource : ripple (c.withSource ds n) = (ripple c).withSource ds n := by
  unfold ripple
  rw [withSource_x]
  simp

theorem swirl_withSource (cfg : Config.Params) :
    swirl cfg (c.withSource ds n) = (swirl cfg c).withSource ds n := by simp [swirl, loop_withSource]

theorem breathing_withSource : breathing (c.withSource ds n) = (breathing c).withSource ds n := by
  unfold breathing
  rw [withSource_x]
  simp

theorem sineWave_withSource (cfg : Config.Params) :
    sineWave cfg (c.withSource ds n) = (sineWave cfg c).withSource ds n := by simp [sineWave, loop_withSource]

theorem flashWhite_withSource : flashWhite (c.withSource ds n) = (flashWhite c).withSource ds n := by
  unfold flashWhite
  rw [withSource_x]
  simp

theorem thunderPulse_withSource : thunderPulse (c.withSource ds n) = (thunderPulse c).withSource ds n := by
  unfold thunderPulse
  rw [withSource_x]
  simp

theorem bassDrop_withSource : bassDrop (c.withSource ds n) = (bassDrop c).withSource ds n := by
  unfold bassDrop
  rw [withSource_x]
  simp

theorem raveStrobe_withSource : raveStrobe (c.withSource ds n) = (raveStrobe c).withSource ds n := by
  unfold raveStrobe
  rw [withSource_x]
  simp

theorem throttlePulse_withSource : throttlePulse (c.withSource ds n) = (throttlePulse c).withSource ds n := by
  simp [throttlePulse]

/-- Every mode of the default table but the four randomized ones (42_oscillators.md R160). -/
theorem standardRender_withSource (cfg : Config.Params) {m : Fin numMode} (hm : m.val < 15 ∨ 18 < m.val) :
    standardRender cfg m (c.withSource ds n) = (standardRender cfg m c).withSource ds n := by
  match m, hm with
  | 0, _ => exact rainbow_withSource ds n c
  | 1, _ => exact fill_withSource ds n c Rgb.red
  | 2, _ => exact toggledFlash_withSource ds n c
  | 3, _ | 5, _ | 6, _ | 7, _ => exact rotate_withSource ds n c _ _ _ _ _ _ _
  | 4, _ => exact sideWipe_withSource ds n c
  | 8, _ => exact sinelon_withSource ds n c cfg
  | 9, _ => exact juggle_withSource ds n c cfg
  | 10, _ => exact comets_withSource ds n c
  | 11, _ => exact runningLight_withSource ds n c
  | 12, _ => exact bounce_withSource ds n c
  | 13, _ => exact dualBounce_withSource ds n c
  | 14, _ => exact ripple_withSource ds n c
  | 15, hm | 16, hm | 17, hm | 18, hm => exact absurd hm (by decide)
  | 19, _ => exact swirl_withSource ds n c cfg
  | 20, _ => exact breathing_withSource ds n c
  | 21, _ => exact sineWave_withSource ds n c cfg
  | 22, _ => exact flashWhite_withSource ds n c
  | 23, _ => exact thunderPulse_withSource ds n c
  | 24, _ => exact bassDrop_withSource ds n c
  | 25, _ => exact raveStrobe_withSource ds n c
  | 26, _ => exact throttlePulse_withSource ds n c
  | ⟨k + 27, hk⟩, _ => exact absurd hk (by simp only [numMode]; omega)

theorem renderMode_withSource {cfg : Config.Params} (ht : cfg.modeTable = modeTable) {m : Nat} (h : m < numMode)
    (hm : m < 15 ∨ 18 < m) : renderMode cfg m (c.withSource ds n) = (renderMode cfg m c).withSource ds n := by
  rw [renderMode_default ht h, renderMode_default ht h, standardRender_withSource ds n c cfg hm]

/-- The mode part of RESET is nothing but for shockwave (44_mode_sequencer.md R213). -/
theorem standardReset_eq_self {m : Fin numMode} (h : m.val ≠ 17) : standardReset m c = c := by
  unfold standardReset
  split
  · exact absurd ‹_› h
  · rfl

theorem resetMode_withSource {cfg : Config.Params} (ht : cfg.modeTable = modeTable) {m : Nat} (h : m < numMode)
    (hm : m < 15 ∨ 18 < m) : resetMode cfg m (c.withSource ds n) = (resetMode cfg m c).withSource ds n := by
  have hne : m ≠ 17 := by omega
  rw [resetMode_default ht h, resetMode_default ht h, standardReset_eq_self _ hne, standardReset_eq_self _ hne,
    fill_withSource, withX_withSource]

end

/-! ### The frame -/

/-- The state with other draws to come and from another position of the stream. -/
def State.withSource (draws : List (BitVec 16)) (pos : Nat) (s : State) : State :=
  { s with draws := draws, drawPos := pos }

section
variable (ds : List (BitVec 16)) (n : Nat) (s : State)

theorem startPresent_withSource (b : Byte) :
    (s.withSource ds n).startPresent b = (s.startPresent b).withSource ds n := rfl

/-- The hand-off reads no draw, whatever the consumer takes. -/
theorem handOver_withSource : (s.withSource ds n).handOver = s.handOver.withSource ds n := by
  by_cases h : s.consumer.takes (numPix - s.handoff.length) = numPix - s.handoff.length
  · rw [handOver_finish s h, handOver_finish (s.withSource ds n) h]
    rfl
  · rw [handOver_stall s h, handOver_stall (s.withSource ds n) h]
    rfl

theorem resetIfChanged_withSource (ht : s.cfg.modeTable = modeTable) (h : s.sMode.toNat < numMode)
    (hm : s.sMode.toNat < 15 ∨ 18 < s.sMode.toNat) :
    (s.withSource ds n).resetIfChanged = s.resetIfChanged.withSource ds n := by
  have hcanvas : (if s.sMode = s.lastMode then s.canvas.withSource ds n
        else resetMode s.cfg s.sMode.toNat (s.canvas.withSource ds n)) =
      Canvas.withSource ds n (if s.sMode = s.lastMode then s.canvas else resetMode s.cfg s.sMode.toNat s.canvas) := by
    rw [resetMode_withSource ds n s.canvas ht h hm, ite_withSource]
  rw [resetIfChanged_eq s]
  exact (resetIfChanged_eq (s.withSource ds n)).trans
    (congrArg (fun c => { (s.withSource ds n).withCanvas c with lastMode := s.sMode }) hcanvas)

theorem resetIfChanged_cfg (s : State) : s.resetIfChanged.cfg = s.cfg := by
  rw [resetIfChanged_eq]
  rfl

theorem renderFrame_withSource (ht : s.cfg.modeTable = modeTable) (h : s.sMode.toNat < numMode)
    (hm : s.sMode.toNat < 15 ∨ 18 < s.sMode.toNat) :
    (s.withSource ds n).renderFrame = s.renderFrame.withSource ds n :=
  congrArg (fun c => { (s.withSource ds n).withCanvas c with frameDelay := some (delayOf s.cfg s.sMode.toNat) })
    (renderMode_withSource ds n s.canvas ht h hm)

/-- Reset when the mode changed, render and hand-off of a mode without draws (44_mode_sequencer.md R210). -/
theorem completeRender_withSource (ht : s.cfg.modeTable = modeTable) (h : s.sMode.toNat < numMode)
    (hm : s.sMode.toNat < 15 ∨ 18 < s.sMode.toNat) :
    (s.withSource ds n).completeRender = s.completeRender.withSource ds n := by
  by_cases hl : s.renderLeft = 0
  · have hrender : (s.withSource ds n).resetIfChanged.renderFrame =
        s.resetIfChanged.renderFrame.withSource ds n := by
      rw [resetIfChanged_withSource ds n s ht h hm]
      exact renderFrame_withSource ds n _ (by rwa [resetIfChanged_cfg]) (by rwa [resetIfChanged_sMode])
        (by rwa [resetIfChanged_sMode])
    rw [State.completeRender, State.completeRender, if_pos hl, ← handOver_withSource, ← startPresent_withSource,
      ← hrender]
    exact if_pos hl
  · rw [completeRender_wait s hl, completeRender_wait (s.withSource ds n) hl]

end

/-- FRAME from the sequencer, when one is due (44_mode_sequencer.md R210). -/
theorem State.FrameDue.exec_frame {s : State} (h : s.FrameDue) : exec .frame s = .next s.runFrame := by
  have hdue : s.frameDue = true := by simp [State.frameDue, h.phase_wait, h.delay_zero]
  have heff : (if s.frameDue then s.runFrame else s) = s.runFrame := if_pos hdue
  exact (issued_of_may (by rw [h.issuer_seq]; rfl) _).trans (congrArg Host.Outcome.next heff)

theorem State.FrameDue.withSource {s : State} (h : s.FrameDue) (ds : List (BitVec 16)) (n : Nat) :
    (s.withSource ds n).FrameDue := { h with }

/-- Settles O52: FRAME commutes with exchanging the source, and with the source it has this says it takes no draw. -/
theorem onlyRandomizedModesDraw : Obligations.OnlyRandomizedModesDraw := by
  intro s hs ht hle hm
  have hcomm (ds : List (BitVec 16)) (n : Nat) : (s.withSource ds n).runFrame = s.runFrame.withSource ds n :=
    completeRender_withSource ds n s.sampleConfig ht (Nat.lt_succ_of_le hle) hm
  have hown : s.runFrame = s.runFrame.withSource s.draws s.drawPos := hcomm s.draws s.drawPos
  refine ⟨s.runFrame, hs.exec_frame, (congrArg State.draws hown).trans rfl,
    (congrArg State.drawPos hown).trans rfl, fun ds n => ?_⟩
  exact (hs.withSource ds n).exec_frame.trans (congrArg Host.Outcome.next (hcomm ds n))

end Sys2Proof.Machine
end

section
/-! The frame-buffer operations: the blender and fade unit works channel by channel, an operation writes its span or the
one pixel it names, and PRESENT hands over as many scaled pixels as the consumer takes
(spec/43_frame_buffer.md R180 to R189; spec/20_memory.md R52 to R55). -/

namespace Sys2Proof.Machine

/-! ### One channel -/

theorem fadeChannel_toNat (k v : Byte) : (fadeChannel k v).toNat = v.toNat - k.toNat := by
  rw [fadeChannel, BitVec.toNat_ofNat]
  omega

theorem addChannel_toNat (c v : Byte) : (addChannel c v).toNat = min 255 (v.toNat + c.toNat) := by
  rw [addChannel, BitVec.toNat_ofNat]
  omega

/-- A fade in plain integers: the difference, but never below 0 (43_frame_buffer.md R185). -/
theorem fadeChannel_toInt (k v : Byte) :
    ((fadeChannel k v).toNat : Int) = max 0 ((v.toNat : Int) - k.toNat) := by
  rw [fadeChannel_toNat]
  omega

theorem fadeChannel_le (k v : Byte) : fadeChannel k v ≤ v := by
  rw [BitVec.le_def, fadeChannel_toNat]
  exact Nat.sub_le _ _

theorem le_addChannel (c v : Byte) : v ≤ addChannel c v := by
  rw [BitVec.le_def, addChannel_toNat]
  omega

/-- Exactly the values up to the amount are gone after one fade (43_frame_buffer.md R189). -/
theorem fadeChannel_eq_zero_iff (k v : Byte) : fadeChannel k v = 0 ↔ v ≤ k := by
  rw [← BitVec.toNat_inj, fadeChannel_toNat, BitVec.le_def]
  exact Nat.sub_eq_zero_iff_le

/-- Two fades are one, by the sum of the amounts as far as a byte holds it (43_frame_buffer.md R189). -/
theorem fadeChannel_fadeChannel {j k l : Byte} (hl : l.toNat = min 255 (j.toNat + k.toNat)) (v : Byte) :
    fadeChannel k (fadeChannel j v) = fadeChannel l v := by
  apply BitVec.eq_of_toNat_eq
  rw [fadeChannel_toNat, fadeChannel_toNat, fadeChannel_toNat]
  omega

theorem iterate_fadeChannel_toNat (k v : Byte) (n : Nat) :
    ((fadeChannel k)^[n] v).toNat = v.toNat - k.toNat * n := by
  induction n with
  | zero => rw [Function.iterate_zero_apply, Nat.mul_zero, Nat.sub_zero]
  | succ n ih => rw [Function.iterate_succ_apply', fadeChannel_toNat, ih, Nat.mul_succ, Nat.sub_sub]

/-- A value is gone when the amounts add up to it. -/
theorem iterate_fadeChannel_eq_zero_iff (k v : Byte) (n : Nat) :
    (fadeChannel k)^[n] v = 0 ↔ v.toNat ≤ k.toNat * n := by
  rw [← BitVec.toNat_inj, iterate_fadeChannel_toNat]
  exact Nat.sub_eq_zero_iff_le

/-! ### One pixel -/

@[simp] theorem fadeRgb_channel (k : Byte) (p : Rgb) (ch : Fin 3) :
    (fadeRgb k p).channel ch = fadeChannel k (p.channel ch) := by
  match ch with
  | 0 | 1 | 2 => rfl

@[simp] theorem addRgb_channel (c p : Rgb) (ch : Fin 3) :
    (addRgb c p).channel ch = addChannel (c.channel ch) (p.channel ch) := by
  match ch with
  | 0 | 1 | 2 => rfl

theorem fadeRgb_black (k : Byte) : fadeRgb k Rgb.black = Rgb.black := by
  have hzero : fadeChannel k 0 = 0 := (fadeChannel_eq_zero_iff k 0).2 (BitVec.le_def.2 (Nat.zero_le _))
  simp only [fadeRgb, Rgb.black, hzero]

theorem fadeRgb_fadeRgb {j k l : Byte} (hl : l.toNat = min 255 (j.toNat + k.toNat)) (p : Rgb) :
    fadeRgb k (fadeRgb j p) = fadeRgb l p := by
  simp only [fadeRgb, fadeChannel_fadeChannel hl]

/-! ### FADEALL on the canvas -/

theorem canvas_eq_of_fields {c d : Canvas} (hx : c.x = d.x) (hfb : c.fb = d.fb) (hdiag : c.diag = d.diag)
    (hdraws : c.draws = d.draws) (hpos : c.drawPos = d.drawPos) : c = d := by
  cases c
  cases d
  exact (Canvas.mk.injEq ..).mpr ⟨hx, hfb, hdiag, hdraws, hpos⟩

/-- FADEALL fades whatever index is read, for what is no pixel reads black and black stays black
(43_frame_buffer.md R185). -/
theorem read_fadeAll_all (k : Byte) (c : Canvas) (hw : c.fb.wf = true) (a : Nat) :
    (c.fadeAll k).fb.read a = fadeRgb k (c.fb.read a) := by
  rw [read_fadeAll k c hw]
  split
  · rfl
  · rw [read_outside c.fb hw (by omega), fadeRgb_black]

/-- FADEALL twice is FADEALL once, down to the data of the buffer (43_frame_buffer.md R189). -/
theorem fadeAll_fadeAll {j k l : Byte} (hl : l.toNat = min 255 (j.toNat + k.toNat)) {c : Canvas}
    (hw : c.fb.wf = true) : (c.fadeAll j).fadeAll k = c.fadeAll l := by
  have hj : (c.fadeAll j).fb.wf = true := wf_fadeAll j c hw
  have hfb : ((c.fadeAll j).fadeAll k).fb = (c.fadeAll l).fb := by
    refine eq_of_read (wf_fadeAll k _ hj) (wf_fadeAll l c hw) fun a => ?_
    rw [read_fadeAll_all k _ hj, read_fadeAll_all j c hw, read_fadeAll_all l c hw, fadeRgb_fadeRgb hl]
  exact canvas_eq_of_fields (by simp) hfb (by simp) (by simp) (by simp)

/-! ### What each operation of the sequencer answers -/

section
variable {s : State} (h : s.issuer = .S)
include h

theorem exec_fill (rgb : Rgb) :
    exec (.fill rgb) s = .next { s with fb := (s.canvas.fill rgb).fb } :=
  issued_of_may (by rw [h]; rfl) _

theorem exec_fillring (ring : Ring) (rgb : Rgb) :
    exec (.fillring ring rgb) s = .next { s with fb := (s.canvas.fillRing ring rgb).fb } :=
  issued_of_may (by rw [h]; rfl) _

theorem exec_fadeall (k : Byte) : exec (.fadeall k) s = .next (s.withCanvas (s.canvas.fadeAll k)) :=
  issued_of_may (by rw [h]; rfl) _

theorem exec_setpix (idx : BitVec 7) (rgb : Rgb) :
    exec (.setpix idx rgb) s = .next (s.withCanvas (s.canvas.updatePix idx fun _ => rgb)) :=
  issued_of_may (by rw [h]; rfl) _

theorem exec_fadepix (idx : BitVec 7) (k : Byte) :
    exec (.fadepix idx k) s = .next (s.withCanvas (s.canvas.updatePix idx (fadeRgb k))) :=
  issued_of_may (by rw [h]; rfl) _

theorem exec_addpix (idx : BitVec 7) (rgb : Rgb) :
    exec (.addpix idx rgb) s = .next (s.withCanvas (s.canvas.updatePix idx (addRgb rgb))) :=
  issued_of_may (by rw [h]; rfl) _

theorem exec_getpix (idx : BitVec 7) :
    exec (.getpix idx) s = .next { s.withCanvas (s.canvas.getPix idx).2 with
      sRes := some ((s.canvas.getPix idx).1.toWord.setWidth 32) } :=
  (issued_of_may (by rw [h]; rfl) _).trans (congrArg Host.Outcome.next (respond_S _ h))

theorem exec_present (b : Byte) : exec (.present b) s = .next (s.startPresent b).handOver :=
  issued_of_may (by rw [h]; rfl) _

end

/-! ### The operations on one pixel -/

/-- A canvas that differs from the state's own in the frame buffer only. -/
theorem withCanvas_eq_of_fb {s : State} {c : Canvas} (hx : c.x = s.x) (hdiag : c.diag = s.diag)
    (hdraws : c.draws = s.draws) (hpos : c.drawPos = s.drawPos) : s.withCanvas c = { s with fb := c.fb } := by
  rw [State.withCanvas, hx, hdiag, hdraws, hpos]

theorem withCanvas_withCanvas (s : State) (c d : Canvas) : (s.withCanvas c).withCanvas d = s.withCanvas d := rfl

/-- An update of a pixel writes that pixel and leaves the rest of the state (20_memory.md R55). -/
theorem exists_withCanvas_updatePix {s : State} (hw : s.fb.wf = true) {idx : BitVec 7} (hi : idx.toNat ≤ 95)
    (f : Rgb → Rgb) : ∃ m : Memory, s.withCanvas (s.canvas.updatePix idx f) = { s with fb := m } ∧ m.wf = true ∧
      ∀ a, m.read a = if a = idx.toNat then f (s.fb.read a) else s.fb.read a := by
  have hpix : idx.toNat < numPix := Nat.lt_succ_of_le hi
  exact ⟨(s.canvas.updatePix idx f).fb,
    withCanvas_eq_of_fb (updatePix_x ..) (updatePix_diag idx f s.canvas hpix) (updatePix_draws ..)
      (updatePix_drawPos ..),
    wf_updatePix idx f s.canvas hw, read_updatePix idx f s.canvas hw hpix⟩

/-- An index that names no pixel raises IDX and does nothing else (20_memory.md R54). -/
theorem withCanvas_updatePix_outside (s : State) {idx : BitVec 7} (hi : 96 ≤ idx.toNat) (f : Rgb → Rgb) :
    s.withCanvas (s.canvas.updatePix idx f) = { s with diag := s.diag ||| 0b01000#5 } := by
  rw [Canvas.updatePix, if_neg (Nat.not_lt.2 hi)]
  rfl

theorem getPix_pixel {idx : BitVec 7} (hi : idx.toNat ≤ 95) (c : Canvas) :
    c.getPix idx = (c.fb.read idx.toNat, c) := if_pos (Nat.lt_succ_of_le hi)

theorem getPix_outside {idx : BitVec 7} (hi : 96 ≤ idx.toNat) (c : Canvas) :
    c.getPix idx = (Rgb.black, c.raise .idx) := if_neg (Nat.not_lt.2 hi)

/-- Either fade fades the pixel an index names. -/
theorem read_of_fade {s t : State} {k : Byte} {idx : BitVec 7} (h : s.issuer = .S) (hw : s.fb.wf = true)
    (hi : idx.toNat ≤ 95) (ht : exec (.fadeall k) s = .next t ∨ exec (.fadepix idx k) s = .next t) :
    t.fb.read idx.toNat = fadeRgb k (s.fb.read idx.toNat) := by
  obtain ht | ht := ht
  · rw [exec_fadeall h] at ht
    cases ht
    rw [State.withCanvas_fb, read_fadeAll_all k s.canvas hw, State.canvas_fb]
  · rw [exec_fadepix h] at ht
    cases ht
    rw [State.withCanvas_fb, read_updatePix idx _ s.canvas hw (Nat.lt_succ_of_le hi), if_pos rfl, State.canvas_fb]

/-- ADDPIX blends into the pixel its index names. -/
theorem read_of_addpix {s t : State} {rgb : Rgb} {idx : BitVec 7} (h : s.issuer = .S) (hw : s.fb.wf = true)
    (hi : idx.toNat ≤ 95) (ht : exec (.addpix idx rgb) s = .next t) :
    t.fb.read idx.toNat = addRgb rgb (s.fb.read idx.toNat) := by
  rw [exec_addpix h] at ht
  cases ht
  rw [State.withCanvas_fb, read_updatePix idx _ s.canvas hw (Nat.lt_succ_of_le hi), if_pos rfl, State.canvas_fb]

/-! ### The hand-off from its start -/

/-- A consumer that takes all the pixels of a new hand-off finishes the frame at once (43_frame_buffer.md R188). -/
theorem handOver_startPresent_finish {s : State} (b : Byte) (h : s.consumer.takes numPix = numPix) :
    (s.startPresent b).handOver = { s with
      outLog := s.outLog ++ [⟨presented s.fb b, s.frameDelay.getD s.delay⟩]
      delay := s.frameDelay.getD s.delay, consumer := s.consumer.after numPix
      frameDelay := none, outBright := b, handoff := [], seq := .wait } := by
  rw [handOver_finish (s.startPresent b) h]
  simp only [State.finishFrame, State.startPresent, List.length_nil, List.nil_append, Nat.zero_add, Nat.sub_zero]
  rfl

/-- A consumer that takes fewer leaves the sequencer in PRESENT (70_reset_and_hazards.md R384). -/
theorem handOver_startPresent_stall {s : State} (b : Byte) (h : s.consumer.takes numPix ≠ numPix) :
    (s.startPresent b).handOver = { s with
      seq := .present, outBright := b, consumer := s.consumer.after (s.consumer.takes numPix)
      handoff := (List.range (s.consumer.takes numPix)).map fun i => scaleRgb b (s.fb.read i) } := by
  rw [handOver_stall (s.startPresent b) h]
  simp only [State.startPresent, List.length_nil, List.nil_append, Nat.zero_add, Nat.sub_zero]
  rfl

/-! ### The obligations -/

/-- Settles O30: the spans are those of the loops. -/
theorem fillsPaintTheirSpan : Obligations.FillsPaintTheirSpan := by
  intro s rgb h hw
  refine ⟨⟨_, exec_fill h rgb, wf_fill rgb s.canvas hw, fun a => ?_⟩,
    ⟨_, exec_fillring h .A rgb, wf_fillRing .A rgb s.canvas hw, fun a => ?_⟩,
    ⟨_, exec_fillring h .B rgb, wf_fillRing .B rgb s.canvas hw, fun a => ?_⟩⟩
  · exact (read_fill rgb s.canvas hw a).trans (if_congr Nat.lt_succ_iff rfl rfl)
  · exact (read_fillRing_A rgb s.canvas hw a).trans (if_congr Nat.lt_succ_iff rfl rfl)
  · exact (read_fillRing_B rgb s.canvas hw a).trans (if_congr (and_congr_right' Nat.lt_succ_iff) rfl rfl)

/-- Settles O31: SETPIX is the update by a constant, and GETPIX answers the three channels as digits. -/
theorem setpixAndGetpixTouchOnePixel : Obligations.SetpixAndGetpixTouchOnePixel := by
  refine ⟨fun s idx rgb h hw => ?_, fun s idx h => ?_⟩
  · rw [exec_setpix h]
    refine ⟨fun hi => ?_, fun hi => by rw [withCanvas_updatePix_outside s hi]⟩
    obtain ⟨m, hm, hwf, hread⟩ := exists_withCanvas_updatePix hw hi fun _ => rgb
    exact ⟨m, congrArg _ hm, hwf, hread⟩
  · rw [exec_getpix h]
    refine ⟨fun hi => ?_, fun hi => ?_⟩
    · rw [getPix_pixel hi, toWord_setWidth]
      rfl
    · have hword : Rgb.black.toWord.setWidth 32 = 0 := by decide
      rw [getPix_outside hi, hword]
      rfl

/-- Settles O32: both fades change a pixel channel by channel. -/
theorem fadesSubtractPerChannel : Obligations.FadesSubtractPerChannel := by
  refine fun s k h hw => ⟨⟨_, exec_fadeall h k, wf_fadeAll k s.canvas hw, fun a ch => ?_⟩, fun idx => ?_⟩
  · rw [read_fadeAll_all k s.canvas hw, fadeRgb_channel]
    exact fadeChannel_toInt k _
  · rw [exec_fadepix h]
    refine ⟨fun hi => ?_, fun hi => by rw [withCanvas_updatePix_outside s hi]⟩
    obtain ⟨m, hm, hwf, hread⟩ := exists_withCanvas_updatePix hw hi (fadeRgb k)
    refine ⟨m, congrArg _ hm, hwf, fun a ha => (hread a).trans (if_neg ha), fun ch => ?_⟩
    rw [hread, if_pos rfl, fadeRgb_channel]
    exact fadeChannel_toInt k _

/-- Settles O33: the blend changes the pixel channel by channel. -/
theorem addpixSaturatesPerChannel : Obligations.AddpixSaturatesPerChannel := by
  intro s idx rgb h hw
  rw [exec_addpix h]
  refine ⟨fun hi => ?_, fun hi => by rw [withCanvas_updatePix_outside s hi]⟩
  obtain ⟨m, hm, hwf, hread⟩ := exists_withCanvas_updatePix hw hi (addRgb rgb)
  refine ⟨m, congrArg _ hm, hwf, fun a ha => (hread a).trans (if_neg ha), fun ch => ?_⟩
  rw [hread, if_pos rfl, addRgb_channel]
  exact addChannel_toNat _ _

/-- Settles O34: the laws of a channel, carried to the pixels, and for the last two the count of fades as the least
`n` with `v ≤ k * n`. -/
theorem blendAndFadeLaws : Obligations.BlendAndFadeLaws := by
  refine ⟨fun s t k idx ch h hw hi ht => ?_, fun s t j k l h hw hl ht => ?_, fun s t rgb idx ch h hw hi ht => ?_,
    fun v k n hk => ?_, fun k n hk10 hk80 => ⟨fun hn => ?_, fun hn => ?_⟩⟩
  · rw [read_of_fade h hw hi ht, fadeRgb_channel]
    exact ⟨fadeChannel_le k _, fadeChannel_eq_zero_iff k _⟩
  · rw [exec_fadeall h] at ht
    cases ht
    have ht : (s.withCanvas (s.canvas.fadeAll j)).issuer = .S := (State.withCanvas_issuer _ s).trans h
    have hcanvas : (s.canvas.fadeAll j).fadeAll k = s.canvas.fadeAll l := fadeAll_fadeAll hl hw
    calc exec (.fadeall k) (s.withCanvas (s.canvas.fadeAll j))
        = .next (s.withCanvas ((s.canvas.fadeAll j).fadeAll k)) := by
          rw [exec_fadeall ht, canvas_withCanvas, withCanvas_withCanvas]
      _ = exec (.fadeall l) s := by rw [hcanvas, exec_fadeall h]
  · rw [read_of_addpix h hw hi ht, addRgb_channel]
    exact ⟨le_addChannel _ _, Nat.le_of_lt_succ (BitVec.isLt _)⟩
  · have hpos : 0 < k.toNat := Nat.pos_of_ne_zero fun h0 => hk (BitVec.eq_of_toNat_eq h0)
    rw [iterate_fadeChannel_eq_zero_iff, ← Nat.ceilDiv_eq_add_pred_div, ceilDiv_le_iff_le_mul hpos]
  · rw [iterate_fadeChannel_eq_zero_iff]
    calc 255 ≤ 10 * 26 := by decide
      _ ≤ k.toNat * n := Nat.mul_le_mul hk10 hn
  · rw [ne_eq, iterate_fadeChannel_eq_zero_iff, Nat.not_le]
    calc k.toNat * n ≤ 80 * 3 := Nat.mul_le_mul hk80 (Nat.le_of_lt_succ hn)
      _ < 255 := by decide

/-- Settles O35, by whether the consumer takes all 96 pixels. -/
theorem presentHandsFrameOver : Obligations.PresentHandsFrameOver := by
  intro s b h
  rw [exec_present h]
  refine ⟨fun hc => ?_, fun n hc hn => ?_, fun n hc hn => ?_⟩
  · have hall : s.consumer.takes numPix = numPix := by rw [hc]; rfl
    have hafter : s.consumer.after numPix = s.consumer := by rw [hc]; rfl
    rw [handOver_startPresent_finish b hall, hafter]
  · have htakes : s.consumer.takes numPix = n := by
      rw [hc]
      exact Nat.min_eq_left (Nat.le_succ_of_le hn)
    have hafter : s.consumer.after n = .accepts 0 := by
      rw [hc]
      exact congrArg Consumer.accepts (Nat.sub_self n)
    have hstall : s.consumer.takes numPix ≠ numPix := by
      rw [htakes]
      exact Nat.ne_of_lt (Nat.lt_succ_of_le hn)
    rw [handOver_startPresent_stall b hstall, htakes, hafter]
  · have hall : s.consumer.takes numPix = numPix := by
      rw [hc]
      exact Nat.min_eq_right hn
    have hafter : s.consumer.after numPix = .accepts (n - 96) := by rw [hc]; rfl
    rw [handOver_startPresent_finish b hall, hafter]

end Sys2Proof.Machine
end

section
/-! Who writes MODE and BRIGHT: the reset and seven operations that are not the sequencer's
(spec/44_mode_sequencer.md R216; spec/47_mode_controller.md R310). -/

namespace Sys2Proof.Machine

/-! ### What leaves them -/

/-- MODE and BRIGHT are the same in both states. -/
def SameScalars (s t : State) : Prop := t.mode = s.mode ∧ t.bright = s.bright

theorem SameScalars.trans {s t u : State} (h : SameScalars s t) (h' : SameScalars t u) : SameScalars s u :=
  ⟨h'.1.trans h.1, h'.2.trans h.2⟩

theorem sameScalars_withCanvas (s : State) (c : Canvas) : SameScalars s (s.withCanvas c) := ⟨rfl, rfl⟩

theorem SameScalars.respond {s t : State} (h : SameScalars s t) (r : RspWord) : SameScalars s (t.respond r) := h

theorem sameScalars_handOver (s : State) : SameScalars s s.handOver := by
  by_cases h : s.consumer.takes (numPix - s.handoff.length) = numPix - s.handoff.length
  · rw [handOver_finish s h]
    exact ⟨rfl, rfl⟩
  · rw [handOver_stall s h]
    exact ⟨rfl, rfl⟩

theorem sameScalars_completeRender (s : State) : SameScalars s s.completeRender := by
  by_cases h : s.renderLeft = 0
  · rw [completeRender_eq s h]
    exact sameScalars_handOver _
  · rw [completeRender_wait s h]
    exact ⟨rfl, rfl⟩

theorem sameScalars_runFrame (s : State) : SameScalars s s.runFrame := sameScalars_completeRender s.sampleConfig

/-- The seven operations that write MODE or BRIGHT (47_mode_controller.md R302 to R308). -/
def configOps : List Op := [.setmode, .adjmode, .setbri, .adjbri, .cfgupdM, .cfgupdB, .cfgupdMB]

/-- None of them is the sequencer's (44_mode_sequencer.md R216). -/
theorem mayIssue_S_configOps : ∀ op ∈ configOps, mayIssue .S op = false := by decide

/-! ### Every operation, word and slot -/

/-- Every operation is one effect behind the issuer check, and the effect of all but the seven leaves MODE and
BRIGHT. -/
theorem exec_scalars (i : Instr) (s : State) :
    ∃ effect : State, exec i s = issued i.op s effect ∧ (i.op ∈ configOps ∨ SameScalars s effect) := by
  cases i with
  | setmode | adjmode | setbri | adjbri | cfgupdM | cfgupdB | cfgupdMB =>
    exact ⟨_, rfl, .inl (by simp only [Instr.op]; decide)⟩
  | nop => exact ⟨_, rfl, .inr ⟨rfl, rfl⟩⟩
  | mappix | unmap | wrap48 | cdist | cfwd | gamma8 | hsv2rgb | scale8 | scale48 | oscTri | oscSin | oscNoise =>
    exact ⟨_, rfl, .inr (.respond ⟨rfl, rfl⟩ _)⟩
  | huedist =>
    refine ⟨_, rfl, .inr ?_⟩
    split <;> exact ⟨rfl, rfl⟩
  | randn n =>
    refine ⟨_, rfl, .inr ?_⟩
    split
    · exact ⟨rfl, rfl⟩
    · exact (sameScalars_withCanvas s _).respond _
  | rand8 | getpix => exact ⟨_, rfl, .inr ((sameScalars_withCanvas s _).respond _)⟩
  | fill | fillring | setpix | fadeall | fadepix | addpix => exact ⟨_, rfl, .inr (sameScalars_withCanvas s _)⟩
  | frame =>
    refine ⟨_, rfl, .inr ?_⟩
    split
    · exact sameScalars_runFrame s
    · exact ⟨rfl, rfl⟩
  | present b => exact ⟨_, rfl, .inr (sameScalars_handOver (s.startPresent b))⟩

/-- An operation leaves MODE and BRIGHT, unless it is one of the seven and does not come from the sequencer. -/
theorem exec_sameScalars {i : Instr} {s t : State} (h : exec i s = .next t) :
    (s.issuer ≠ .S ∧ i.op ∈ configOps) ∨ SameScalars s t := by
  obtain ⟨effect, he, heff⟩ := exec_scalars i s
  obtain ⟨hmay, hi⟩ | ⟨-, hi⟩ := issued_cases i.op s effect <;> rw [he, hi] at h <;> cases h
  · refine heff.imp_left fun hop => ⟨fun hS => ?_, hop⟩
    rw [hS, mayIssue_S_configOps i.op hop] at hmay
    cases hmay
  · exact .inr ⟨rfl, rfl⟩

theorem sameScalars_dropWord (e : DecodeError) (s : State) : SameScalars s (State.dropWord e s) := by
  cases e with
  | unassigned c => exact ⟨rfl, rfl⟩
  | reservedField op | zeroDivisor op =>
    simp only [State.dropWord]
    split <;> exact ⟨rfl, rfl⟩

/-- A word leaves MODE and BRIGHT, unless it decodes to one of the seven and comes from a port. -/
theorem runWord_sameScalars {iss : Issuer} {w : OpWord} {s t : State} (h : s.runWord iss w = .next t) :
    (iss ≠ .S ∧ ∃ i : Instr, decode w = .ok i ∧ i.op ∈ configOps) ∨ SameScalars s t := by
  cases hd : decode w with
  | ok i =>
    rw [runWord_ok hd] at h
    exact (exec_sameScalars h).imp (fun ⟨hiss, hop⟩ => ⟨hiss, i, rfl, hop⟩) (SameScalars.trans ⟨rfl, rfl⟩)
  | error e =>
    rw [runWord_error hd] at h
    cases h
    exact .inr (SameScalars.trans ⟨rfl, rfl⟩ (sameScalars_dropWord e (s.accept iss)))

theorem runSequencer_sameScalars {tick : Bool} {s t : State} (h : s.runSequencer tick = .next t) :
    SameScalars s t := by
  cases hq : s.seq with
  | wait =>
    by_cases hd : s.delay = 0
    · rw [runSequencer_due tick hq hd, exec_frame_due hq hd] at h
      cases h
      exact SameScalars.trans ⟨rfl, rfl⟩ (sameScalars_runFrame (s.accept .S))
    · rw [runSequencer_wait tick hq hd] at h
      cases h
      cases tick <;> exact ⟨rfl, rfl⟩
  | render =>
    rw [runSequencer_render tick hq] at h
    cases h
    exact SameScalars.trans ⟨rfl, rfl⟩ (sameScalars_completeRender { s with renderLeft := s.renderLeft - 1 })
  | present =>
    rw [runSequencer_present tick hq] at h
    cases h
    exact sameScalars_handOver s

/-- Settles O17, by the agenda: of the actions of a clock only a reset and a word can write MODE or BRIGHT. -/
theorem onlyConfigurationWritesScalars : Obligations.OnlyConfigurationWritesScalars := by
  intro s t h hne
  have hchanged : ¬SameScalars s t := fun hsame => hne.elim (absurd hsame.1) (absurd hsame.2)
  cases ha : s.agenda with
  | nil =>
    rw [step_nil ha] at h
    cases h
    exact absurd ⟨rfl, rfl⟩ hchanged
  | cons a rest =>
    rw [step_cons ha] at h
    cases a with
    | reset => exact .inl ⟨rest, rfl⟩
    | word iss w =>
      obtain ⟨hiss, i, hd, hop⟩ | hsame := runWord_sameScalars h
      · exact .inr ⟨iss, w, rest, i, rfl, hiss, hd, hop⟩
      · exact absurd (SameScalars.trans ⟨rfl, rfl⟩ hsame) hchanged
    | sequencer tick => exact absurd (SameScalars.trans ⟨rfl, rfl⟩ (runSequencer_sameScalars h)) hchanged

end Sys2Proof.Machine
end

section
/-! FRAME as a whole: what the render finds and leaves, and the hand-off of its picture, whatever MODE_TABLE holds
(spec/44_mode_sequencer.md R210 to R218). -/

namespace Sys2Proof.Machine

/-! ### The delay -/

/-- FRAME from the sequencer, when none is due (log entry 8). -/
theorem exec_frame_not_due {s : State} (h : s.issuer = .S) (hdue : s.frameDue = false) :
    exec .frame s = .next s := by
  have heff : (if s.frameDue then s.runFrame else s) = s := if_neg (by rw [hdue]; decide)
  exact (issued_of_may (by rw [h]; rfl) _).trans (congrArg Host.Outcome.next heff)

/-- Settles O43: the slot in WAIT is the countdown, and a FRAME asks whether it is due. -/
theorem delayCountsTicks : Obligations.DelayCountsTicks := by
  refine ⟨fun s hq hd => ⟨runSequencer_wait false hq hd, s.delay - 1, runSequencer_wait true hq hd, ?_⟩,
    fun s hS hnot => exec_frame_not_due hS ?_⟩
  · bv_omega
  · rw [State.frameDue, Bool.and_eq_false_iff, decide_eq_false_iff_not, decide_eq_false_iff_not]
    exact hnot

/-! ### The canvas of a frame -/

/-- The canvas the render of the next frame finds: as it is, or reset when the mode has changed
(44_mode_sequencer.md R210 steps 3 to 5, R212). -/
def State.startCanvas (s : State) : Canvas :=
  if s.mode = s.lastMode then s.canvas else resetMode s.cfg s.mode.toNat s.canvas

/-- The canvas it leaves (44_mode_sequencer.md R210 step 6). -/
def State.frameCanvas (s : State) : Canvas := renderMode s.cfg s.mode.toNat s.startCanvas

theorem startCanvas_same {s : State} (h : s.mode = s.lastMode) : s.startCanvas = s.canvas := if_pos h

theorem startCanvas_changed {s : State} (h : s.mode ≠ s.lastMode) :
    s.startCanvas = resetMode s.cfg s.mode.toNat s.canvas := if_neg h

theorem wf_startCanvas {s : State} (hw : s.fb.wf = true) : s.startCanvas.fb.wf = true := by
  by_cases hl : s.mode = s.lastMode
  · rw [startCanvas_same hl]
    exact hw
  · rw [startCanvas_changed hl]
    exact (grown_resetMode _ _ _).1 hw

/-! ### The state after a frame -/

/-- The state in which the hand-off of a frame begins when the render takes no time. -/
def State.rendered (s : State) : State :=
  { s.withCanvas s.frameCanvas with
    sMode := s.mode, sBright := s.bright, lastMode := s.mode, seq := .render
    frameDelay := some (delayOf s.cfg s.mode.toNat), renderLeft := 0, renderLats := s.renderLats.tail }

/-- The state after a frame of which the consumer takes every pixel (44_mode_sequencer.md R210 steps 7 to 9). -/
def State.frameDone (s : State) : State :=
  { s.rendered with
    outLog := s.outLog ++ [⟨presented s.frameCanvas.fb s.bright, delayOf s.cfg s.mode.toNat⟩]
    delay := delayOf s.cfg s.mode.toNat, consumer := s.consumer.after numPix
    frameDelay := none, outBright := s.bright, handoff := [], seq := .wait }

/-- One pass of the Render Loop: the frame is rendered, and its hand-off begins at the sampled brightness
(44_mode_sequencer.md R210). -/
theorem runFrame_eq {s : State} (h : s.renderLats.headD 0 = 0) :
    s.runFrame = (s.rendered.startPresent s.bright).handOver := by
  have hsample : s.sampleConfig = { s.sampleConfig with renderLeft := 0 } :=
    congrArg (fun n => { s.sampleConfig with renderLeft := n }) h
  rw [State.runFrame, hsample, completeRender_eq _ rfl]
  rfl

theorem runFrame_finish {s : State} (h : s.renderLats.headD 0 = 0) (hall : s.consumer.takes numPix = numPix) :
    s.runFrame = s.frameDone :=
  (runFrame_eq h).trans (handOver_startPresent_finish s.bright hall)

theorem runFrame_stall {s : State} (h : s.renderLats.headD 0 = 0) (hstall : s.consumer.takes numPix ≠ numPix) :
    s.runFrame = { s.rendered with
      seq := .present, outBright := s.bright, consumer := s.consumer.after (s.consumer.takes numPix)
      handoff := (List.range (s.consumer.takes numPix)).map fun i => scaleRgb s.bright (s.frameCanvas.fb.read i) } :=
  (runFrame_eq h).trans (handOver_startPresent_stall s.bright hstall)

/-- A consumer that is ready takes every pixel and stays so. -/
theorem takes_ready {c : Consumer} (h : c = .ready) (n : Nat) : c.takes n = n ∧ c.after n = c := by
  subst h
  exact ⟨rfl, rfl⟩

/-- With the consumer ready FRAME runs to its end. -/
theorem State.FrameReady.exec_frame {s : State} (h : s.FrameReady) : exec .frame s = .next s.frameDone := by
  have hall : s.consumer.takes numPix = numPix := (takes_ready h.consumer_ready numPix).1
  rw [State.FrameDue.exec_frame { h with }, runFrame_finish h.no_latency hall]

/-- Settles O37, by whether the consumer takes all 96 pixels. -/
theorem frameRunsWholeCycle : Obligations.FrameRunsWholeCycle := by
  intro s hs c0 c1 d rendered finished
  rw [hs.exec_frame]
  refine ⟨fun hc => ?_, fun n hc hn => ?_, fun n hc hn => ?_⟩
  · obtain ⟨hall, hafter⟩ := takes_ready hc numPix
    rw [runFrame_finish hs.no_latency hall, State.frameDone, hafter]
    rfl
  · have hall : s.consumer.takes numPix = numPix := by
      rw [hc]
      exact Nat.min_eq_right hn
    rw [runFrame_finish hs.no_latency hall, State.frameDone, hc]
    rfl
  · have htakes : s.consumer.takes numPix = n := by
      rw [hc]
      exact Nat.min_eq_left (Nat.le_succ_of_le hn)
    have hstall : s.consumer.takes numPix ≠ numPix := by
      rw [htakes]
      exact Nat.ne_of_lt (Nat.lt_succ_of_le hn)
    have hafter : s.consumer.after n = .accepts 0 := by
      rw [hc]
      exact congrArg Consumer.accepts (Nat.sub_self n)
    rw [runFrame_stall hs.no_latency hstall, htakes, hafter]
    rfl

/-! ### The entry of MODE_TABLE -/

theorem length_presented (fb : Memory) (b : Byte) : (presented fb b).length = 96 := by
  rw [presented, List.length_map, List.length_range]

/-- Settles O42: the delay a render returns is that of its entry. -/
theorem frameLoadsModeDelay : Obligations.FrameLoadsModeDelay := by
  refine ⟨fun s e hs he => ?_, rfl⟩
  have hdelay : delayOf s.cfg s.mode.toNat = e.delay := by simp only [delayOf, he]
  refine ⟨s.frameDone, presented s.frameCanvas.fb s.bright, hs.exec_frame, hdelay, ?_, length_presented _ _⟩
  rw [State.frameDone, hdelay]

/-- MODE_TABLE has no entry for a mode from 27 on, which is then the fallback's (44_mode_sequencer.md R218). -/
theorem modeTable_unknown (cfg : Config.Params) {m : Nat} (h : 27 ≤ m) : cfg.modeTable[m]? = none :=
  Vector.getElem?_eq_none h

section
variable (cfg : Config.Params) {m : Nat} (h : 27 ≤ m) (c : Canvas)
include h

theorem resetMode_unknown : resetMode cfg m c = (c.fill Rgb.black).withX ⟨0, 0, 0, 0⟩ := by
  simp only [resetMode, resetPartOf, modeTable_unknown cfg h]

theorem renderMode_unknown : renderMode cfg m c = (c.raise .unkmode).fill Rgb.black := by
  simp only [renderMode, modeTable_unknown cfg h]

theorem delayOf_unknown : delayOf cfg m = cfg.fallbackDelay.val := by
  simp only [delayOf, modeTable_unknown cfg h]

end

theorem scaleRgb_black (b : Byte) : scaleRgb b Rgb.black = Rgb.black := by
  simp only [scaleRgb, Rgb.black, sc255_comm, sc255_zero]

/-- A black buffer goes out black at every brightness. -/
theorem presented_black {fb : Memory} (h : ∀ a, fb.read a = Rgb.black) (b : Byte) :
    presented fb b = List.replicate 96 Rgb.black := by
  simp only [presented, h, scaleRgb_black, List.map_const', List.length_range]

/-- Settles O41: neither the reset nor the render of an unknown mode does more than fill with black. -/
theorem unknownModeFallsBack : Obligations.UnknownModeFallsBack := by
  intro s hs hw hm
  have hdelay : delayOf s.cfg s.mode.toNat = s.cfg.fallbackDelay.val := delayOf_unknown s.cfg hm
  have hcanvas : s.frameCanvas = (s.startCanvas.raise .unkmode).fill Rgb.black := renderMode_unknown s.cfg hm _
  have hwf : s.startCanvas.fb.wf = true := wf_startCanvas hw
  have hstart : s.startCanvas.diag = s.diag ∧ s.startCanvas.draws = s.draws ∧ s.startCanvas.drawPos = s.drawPos := by
    by_cases hl : s.mode = s.lastMode
    · rw [startCanvas_same hl]
      exact ⟨rfl, rfl, rfl⟩
    · rw [startCanvas_changed hl, resetMode_unknown s.cfg hm]
      exact ⟨by simp, by simp, by simp⟩
  obtain ⟨hdiag, hdraws, hpos⟩ := hstart
  have hblack (a : Nat) : s.frameCanvas.fb.read a = Rgb.black := by
    have hraised : (s.startCanvas.raise .unkmode).fb.wf = true := hwf
    rw [hcanvas, read_fill _ _ hraised]
    split
    · rfl
    · exact read_outside _ hraised (Nat.le_of_not_lt ‹_›)
  refine ⟨s.frameDone, hs.exec_frame, hblack, ?_, hdelay, rfl, rfl, ?_, ?_, ?_⟩
  · calc s.frameCanvas.diag = s.startCanvas.diag ||| 0b10000#5 := by rw [hcanvas, fill_diag]; rfl
      _ = s.diag ||| 0b10000#5 := by rw [hdiag]
  · calc s.frameCanvas.draws = s.startCanvas.draws := by rw [hcanvas, fill_draws]; rfl
      _ = s.draws := hdraws
  · calc s.frameCanvas.drawPos = s.startCanvas.drawPos := by rw [hcanvas, fill_drawPos]; rfl
      _ = s.drawPos := hpos
  · rw [State.frameDone, presented_black hblack, hdelay]

/-! ### The frames after one another -/

/-- A tick in WAIT with a delay to count (60_exceptions.md R345). -/
theorem tickSlot_countDown {s : State} (hq : s.seq = .wait) (hd : s.delay ≠ 0) :
    s.tickSlot = { s with delay := s.delay - 1 } := by
  rw [State.tickSlot, runSequencer_wait true hq hd]
  rfl

/-- As many ticks as the delay says, or fewer, do nothing but count (44_mode_sequencer.md R211). -/
theorem iterate_tickSlot {s : State} (hq : s.seq = .wait) {k : Nat} (hk : k ≤ s.delay.toNat) :
    State.tickSlot^[k] s = { s with delay := s.delay - BitVec.ofNat 8 k } := by
  induction k with
  | zero =>
    rw [Function.iterate_zero_apply, show s.delay - BitVec.ofNat 8 0 = s.delay from BitVec.sub_zero _]
  | succ k ih =>
    have hne : s.delay - BitVec.ofNat 8 k ≠ 0 := by bv_omega
    have hnext : s.delay - BitVec.ofNat 8 k - 1 = s.delay - BitVec.ofNat 8 (k + 1) := by bv_omega
    rw [Function.iterate_succ_apply', ih (by omega)]
    exact (tickSlot_countDown (s := { s with delay := s.delay - BitVec.ofNat 8 k }) hq hne).trans
      (congrArg (fun d => { s with delay := d }) hnext)

/-- A slot in WAIT with no delay left runs a frame, whole when nothing holds it up (44_mode_sequencer.md R211). -/
theorem tickSlot_frame {s : State} (hu : s.Unhindered) (hd : s.delay = 0) :
    s.tickSlot = (s.accept .S).frameDone := by
  have hlat : (s.accept .S).renderLats.headD 0 = 0 := congrArg (fun l => l.headD 0) hu.no_latencies
  rw [State.tickSlot, runSequencer_due true hu.phase_wait hd, exec_frame_due hu.phase_wait hd,
    runFrame_finish hlat (takes_ready hu.consumer_ready numPix).1]
  rfl

/-- Settles O60: the delay counts down to 0 without a frame, and then the slot runs one whole. -/
theorem frameComesAfterDelay : Obligations.FrameComesAfterDelay := by
  intro s _ hu
  refine ⟨fun k hk => (congrArg State.outLog (iterate_tickSlot hu.phase_wait hk)).trans rfl, ?_⟩
  have hzero : s.delay - BitVec.ofNat 8 s.delay.toNat = 0 := by bv_omega
  rw [Function.iterate_succ_apply', iterate_tickSlot hu.phase_wait (Nat.le_refl _), hzero]
  have hdue : State.Unhindered { s with delay := 0 } := { hu with }
  rw [tickSlot_frame hdue rfl]
  exact ⟨_, rfl, length_presented _ _⟩

end Sys2Proof.Machine
end

section
/-! A frame does not read DIAG: whatever procedures MODE_TABLE holds, two canvases that differ in the event bits only
are rendered alike, so all that a newly active mode sees of the modes before it is gone
(spec/44_mode_sequencer.md R213, R219, R223). -/

namespace Sys2Proof.Machine

/-! ### Canvases that differ in DIAG only -/

/-- The registers, the frame buffer and the random source are the same in both canvases. -/
structure Alike (c d : Canvas) : Prop where
  x : c.x = d.x
  fb : c.fb = d.fb
  draws : c.draws = d.draws
  drawPos : c.drawPos = d.drawPos

namespace Alike

variable {c d : Canvas} (h : Alike c d)
include h

theorem raise (e : Event) : Alike (c.raise e) (d.raise e) := ⟨h.x, h.fb, h.draws, h.drawPos⟩

theorem withX (x : MsBank) : Alike (c.withX x) (d.withX x) := ⟨rfl, h.fb, h.draws, h.drawPos⟩

theorem fill (rgb : Rgb) : Alike (c.fill rgb) (d.fill rgb) :=
  ⟨by simp [h.x], by simp only [Canvas.fill, h.fb], by simp [h.draws], by simp [h.drawPos]⟩

theorem fillRing (ring : Ring) (rgb : Rgb) : Alike (c.fillRing ring rgb) (d.fillRing ring rgb) :=
  ⟨by simp [h.x], by simp only [Canvas.fillRing, h.fb], by simp [h.draws], by simp [h.drawPos]⟩

theorem fadeAll (k : Byte) : Alike (c.fadeAll k) (d.fadeAll k) :=
  ⟨by simp [h.x], by simp only [Canvas.fadeAll, h.fb], by simp [h.draws], by simp [h.drawPos]⟩

theorem updatePix (idx : BitVec 7) (f : Rgb → Rgb) : Alike (c.updatePix idx f) (d.updatePix idx f) := by
  unfold Canvas.updatePix
  split
  · exact ⟨h.x, by rw [h.fb], h.draws, h.drawPos⟩
  · exact h.raise .idx

theorem setPix (idx : BitVec 7) (rgb : Rgb) : Alike (c.setPix idx rgb) (d.setPix idx rgb) := h.updatePix idx _

theorem plot2 (p : Nat) (rgb : Rgb) : Alike (c.plot2 p rgb) (d.plot2 p rgb) := (h.setPix _ rgb).setPix _ rgb

theorem add2 (p : Nat) (rgb : Rgb) : Alike (c.add2 p rgb) (d.add2 p rgb) := (h.updatePix _ _).updatePix _ _

theorem getPix (idx : BitVec 7) :
    (c.getPix idx).1 = (d.getPix idx).1 ∧ Alike (c.getPix idx).2 (d.getPix idx).2 := by
  unfold Canvas.getPix
  split
  · exact ⟨by rw [h.fb], h⟩
  · exact ⟨rfl, h.raise .idx⟩

theorem draw16 : c.draw16.1 = d.draw16.1 ∧ Alike c.draw16.2 d.draw16.2 := by
  refine ⟨?_, h.x, h.fb, ?_, ?_⟩ <;> simp only [Canvas.draw16, h.draws, h.drawPos]

theorem rand8 : c.rand8.1 = d.rand8.1 ∧ Alike c.rand8.2 d.rand8.2 :=
  ⟨by simp only [Canvas.rand8, h.draw16.1], h.draw16.2⟩

theorem randN (n : Byte) : (c.randN n).1 = (d.randN n).1 ∧ Alike (c.randN n).2 (d.randN n).2 :=
  ⟨by simp only [Canvas.randN, h.draw16.1], h.draw16.2⟩

theorem ite {c' d' : Canvas} (p : Prop) [Decidable p] (h' : Alike c' d') :
    Alike (if p then c else c') (if p then d else d') := by
  split
  · exact h
  · exact h'

theorem loop {n : Nat} {body : Nat → Canvas → Canvas}
    (hb : ∀ p c' d', Alike c' d' → Alike (body p c') (body p d')) : Alike (loop n body c) (loop n body d) := by
  induction n with
  | zero => exact h
  | succ n ih =>
    rw [loop_succ, loop_succ]
    exact hb n _ _ ih

/-! ### The standard modes -/

theorem rotate (n w step : Nat) (bg : Byte) (invert : Bool) (fixed : Option Rgb) (hstep : Nat) :
    Alike (rotate n w step bg invert fixed hstep c) (rotate n w step bg invert fixed hstep d) := by
  simp only [Machine.rotate, ← h.x]
  refine .withX ?_ _
  exact .loop (.ite (.fill h _) _ (.fadeAll h _)) fun _ _ _ h' => .ite (.plot2 h' _ _) _ h'

theorem sparkle : Alike (sparkle c) (sparkle d) := by
  obtain ⟨htest, h1⟩ := (h.fill Rgb.black).rand8
  obtain ⟨hidx, h2⟩ := h1.randN 96
  obtain ⟨hhue, h3⟩ := h2.rand8
  simp only [Machine.sparkle, ← htest, ← hidx, ← hhue]
  exact (h3.setPix _ _).ite _ h1

theorem fireflyRing (ring : Ring) : Alike (fireflyRing ring c) (fireflyRing ring d) := by
  obtain ⟨htest, h1⟩ := h.rand8
  obtain ⟨hpos, h2⟩ := h1.randN 48
  obtain ⟨hhue, h3⟩ := h2.rand8
  simp only [Machine.fireflyRing, ← htest, ← hpos, ← hhue]
  exact (h3.setPix _ _).ite _ h1

theorem drawOrigins : Alike (drawOrigins c) (drawOrigins d) := by
  obtain ⟨hA, h1⟩ := h.randN 48
  obtain ⟨hB, h2⟩ := h1.randN 48
  simp only [Machine.drawOrigins, ← hA, ← hB, ← h2.x]
  exact h2.withX _

theorem shockFronts (ring : Ring) (o rad : Nat) (col : Rgb) :
    Alike (shockFronts ring o rad col c) (shockFronts ring o rad col d) := (h.setPix _ col).setPix _ col

theorem shockwave : Alike (shockwave c) (shockwave d) := by
  simp only [Machine.shockwave, ← h.x]
  have hfronts := ((h.fadeAll 60).shockFronts .A c.x.x0.toNat c.x.x2.toNat (hsvFull c.x.x3.toNat)).shockFronts .B
    c.x.x1.toNat c.x.x2.toNat (hsvFull c.x.x3.toNat)
  exact .ite (.drawOrigins (.withX hfronts _)) _ (.withX hfronts _)

theorem barRing (ring : Ring) (n : Nat) : Alike (barRing ring n c) (barRing ring n d) :=
  h.loop fun _ _ _ h' => (h'.setPix _ _).setPix _ _

theorem barGraph : Alike (barGraph c) (barGraph d) := by
  obtain ⟨hA, h1⟩ := (h.fill Rgb.black).randN 25
  obtain ⟨hB, h2⟩ := h1.randN 25
  simp only [Machine.barGraph, ← hA, ← hB]
  exact (h2.barRing _ _).barRing _ _

theorem rainbow : Alike (rainbow c) (rainbow d) := by
  simp only [Machine.rainbow, ← h.x]
  exact .loop (.withX h _) fun _ _ _ h' => .plot2 h' _ _

theorem toggledFlash : Alike (toggledFlash c) (toggledFlash d) := by
  simp only [Machine.toggledFlash, ← h.x]
  exact .withX (.ite (.fill h _) _ (.fill h _)) _

theorem sideWipe : Alike (sideWipe c) (sideWipe d) := by
  simp only [Machine.sideWipe, ← h.x]
  exact .withX (.plot2 (.plot2 h _ _) _ _) _

theorem sinelon (cfg : Config.Params) : Alike (sinelon cfg c) (sinelon cfg d) := by
  simp only [Machine.sinelon, ← h.x]
  exact .withX (.add2 (.fadeAll h _) _ _) _

theorem juggle (cfg : Config.Params) : Alike (juggle cfg c) (juggle cfg d) := by
  simp only [Machine.juggle, ← h.x]
  refine .withX ?_ _
  exact .loop (.fadeAll h _) fun _ _ _ h' => .add2 h' _ _

theorem comets : Alike (comets c) (comets d) := by
  simp only [Machine.comets, ← h.x]
  exact .withX (.plot2 (.plot2 (.fadeAll h _) _ _) _ _) _

theorem runningLight : Alike (runningLight c) (runningLight d) := by
  simp only [Machine.runningLight, ← h.x]
  refine .withX ?_ _
  exact .loop (.fadeAll h _) fun _ _ _ h' => .plot2 h' _ _

theorem bounce : Alike (bounce c) (bounce d) := by
  simp only [Machine.bounce, ← h.x]
  exact .withX (.plot2 (.fadeAll h _) _ _) _

theorem dualBounce : Alike (dualBounce c) (dualBounce d) := by
  simp only [Machine.dualBounce, ← h.x]
  exact .withX (.plot2 (.plot2 (.fadeAll h _) _ _) _ _) _

theorem ripple : Alike (ripple c) (ripple d) := by
  simp only [Machine.ripple, ← h.x]
  exact .withX (.plot2 (.plot2 (.fadeAll h _) _ _) _ _) _

theorem swirl (cfg : Config.Params) : Alike (swirl cfg c) (swirl cfg d) := by
  simp only [Machine.swirl, ← h.x]
  refine .withX ?_ _
  exact .loop h fun _ _ _ h' => .setPix h' _ _

theorem breathing : Alike (breathing c) (breathing d) := by
  simp only [Machine.breathing, ← h.x]
  exact .withX (.fill h _) _

theorem sineWave (cfg : Config.Params) : Alike (sineWave cfg c) (sineWave cfg d) := by
  simp only [Machine.sineWave, ← h.x]
  refine .withX ?_ _
  exact .loop h fun _ _ _ h' => .plot2 h' _ _

theorem flashWhite : Alike (flashWhite c) (flashWhite d) := by
  simp only [Machine.flashWhite, ← h.x]
  exact .withX (.ite (.fill h _) _ (.fill h _)) _

theorem thunderPulse : Alike (thunderPulse c) (thunderPulse d) := by
  simp only [Machine.thunderPulse, ← h.x]
  exact .withX (.ite (.fill h _) _ (.fill h _)) _

theorem bassDrop : Alike (bassDrop c) (bassDrop d) := by
  simp only [Machine.bassDrop, ← h.x]
  exact .withX (.fill h _) _

theorem raveStrobe : Alike (raveStrobe c) (raveStrobe d) := by
  simp only [Machine.raveStrobe, ← h.x]
  exact .ite (.withX (.fill h _) _) _ (.withX (.fill h _) _)

theorem throttlePulse : Alike (throttlePulse c) (throttlePulse d) := by
  simp only [Machine.throttlePulse, ← h.x]
  exact .withX (.fill h _) _

/-- The render of every mode of the default table. -/
theorem standardRender (cfg : Config.Params) (m : Fin numMode) :
    Alike (standardRender cfg m c) (standardRender cfg m d) := by
  unfold Machine.standardRender
  split
  · exact h.rainbow
  · exact h.fill _
  · exact h.toggledFlash
  · exact h.rotate ..
  · exact h.sideWipe
  · exact h.rotate ..
  · exact h.rotate ..
  · exact h.rotate ..
  · exact h.sinelon cfg
  · exact h.juggle cfg
  · exact h.comets
  · exact h.runningLight
  · exact h.bounce
  · exact h.dualBounce
  · exact h.ripple
  · exact h.sparkle
  · exact ((h.fadeAll 10).fireflyRing .A).fireflyRing .B
  · exact h.shockwave
  · exact h.barGraph
  · exact h.swirl cfg
  · exact h.breathing
  · exact h.sineWave cfg
  · exact h.flashWhite
  · exact h.thunderPulse
  · exact h.bassDrop
  · exact h.raveStrobe
  · exact h.throttlePulse

theorem standardReset (m : Fin numMode) : Alike (standardReset m c) (standardReset m d) := by
  unfold Machine.standardReset
  split
  · exact h.drawOrigins
  · exact h

/-! ### The procedures of any table -/

/-- An operation a procedure issues answers alike. -/
theorem issue (cfg : Config.Params) (i : Instr) :
    (c.issue cfg i).1 = (d.issue cfg i).1 ∧ Alike (c.issue cfg i).2 (d.issue cfg i).2 := by
  cases i with
  | huedist start n i =>
    simp only [Canvas.issue]
    split
    · exact ⟨rfl, h.raise .illop⟩
    · exact ⟨rfl, h⟩
  | randn n =>
    simp only [Canvas.issue]
    split
    · exact ⟨rfl, h.raise .illop⟩
    · exact (h.randN n).imp_left (congrArg fun b : Byte => b.setWidth 32)
  | rand8 => exact h.rand8.imp_left (congrArg fun b : Byte => b.setWidth 32)
  | fill rgb => exact ⟨rfl, h.fill rgb⟩
  | fillring ring rgb => exact ⟨rfl, h.fillRing ring rgb⟩
  | setpix idx rgb => exact ⟨rfl, h.setPix idx rgb⟩
  | getpix idx => exact (h.getPix idx).imp_left (congrArg fun p : Rgb => p.toWord.setWidth 32)
  | fadeall k => exact ⟨rfl, h.fadeAll k⟩
  | fadepix idx k => exact ⟨rfl, h.updatePix idx _⟩
  | addpix idx rgb => exact ⟨rfl, h.updatePix idx _⟩
  | _ => exact ⟨rfl, h⟩

end Alike

/-- Two procedures at work with the same names on such canvases. -/
structure AlikeWork (w u : Work) : Prop where
  vars : w.vars = u.vars
  canvas : Alike w.canvas u.canvas

namespace AlikeWork

variable {w u : Work}

theorem evalExpr (h : AlikeWork w u) (e : Expr) : evalExpr w e = evalExpr u e := by
  induction e with
  | const n => rfl
  | reg i => simp only [Machine.evalExpr, h.canvas.x]
  | var v => simp only [Machine.evalExpr, h.vars]
  | add a b iha ihb | sub a b iha ihb | mul a b iha ihb | div a b iha ihb | mod a b iha ihb | xor a b iha ihb
  | less a b iha ihb | same a b iha ihb => simp only [Machine.evalExpr, iha, ihb]

theorem formOp (h : AlikeWork w u) (o : ProcOp) : formOp w o = formOp u o := by
  cases o <;> simp only [Machine.formOp, ringOf, rgbOf, fieldOf, h.evalExpr]

theorem assign (h : AlikeWork w u) (v : Nat) (n : Int) : AlikeWork (w.assign v n) (u.assign v n) :=
  ⟨congrArg (List.cons (v, n)) h.vars, h.canvas⟩

theorem write (h : AlikeWork w u) (i : Fin 4) (n : Int) : AlikeWork (w.write i n) (u.write i n) :=
  ⟨h.vars, congrArg (fun x : MsBank => x.set i (BitVec.ofInt 16 n)) h.canvas.x, h.canvas.fb, h.canvas.draws,
    h.canvas.drawPos⟩

theorem issue (h : AlikeWork w u) (cfg : Config.Params) (v : Nat) (o : ProcOp) :
    AlikeWork (w.issue cfg v o) (u.issue cfg v o) := by
  obtain ⟨hres, hcanvas⟩ := h.canvas.issue cfg (Machine.formOp w o)
  have hdone : AlikeWork ⟨w.vars, (w.canvas.issue cfg (Machine.formOp w o)).2⟩
      ⟨u.vars, (u.canvas.issue cfg (Machine.formOp w o)).2⟩ := ⟨h.vars, hcanvas⟩
  simp only [Work.issue, ← h.formOp, ← hres]
  exact hdone.assign v _

/-- The steps of a procedure. -/
theorem runProc (h : AlikeWork w u) (cfg : Config.Params) (p : Proc) :
    AlikeWork (runProc cfg p w) (runProc cfg p u) := by
  induction p generalizing w u with
  | done => exact h
  | issue v o => exact h.issue cfg v o
  | assign v e =>
    simp only [Machine.runProc, ← h.evalExpr]
    exact h.assign v _
  | write i e =>
    simp only [Machine.runProc, ← h.evalExpr]
    exact h.write i _
  | seq p q hp hq => exact hq (hp h)
  | cond e p q hp hq =>
    simp only [Machine.runProc, ← h.evalExpr]
    split
    · exact hp h
    · exact hq h
  | loop v count body hb =>
    simp only [Machine.runProc, ← h.evalExpr]
    generalize List.range _ = l
    induction l generalizing w u with
    | nil => exact h
    | cons j l ih => exact ih (hb (h.assign v j))

end AlikeWork

/-! ### RESET and RENDER of any table -/

section
variable {c d : Canvas} (h : Alike c d) (cfg : Config.Params)
include h

theorem Alike.performProc (p : Proc) : Alike (performProc cfg p c) (performProc cfg p d) :=
  (AlikeWork.runProc (w := ⟨[], c⟩) (u := ⟨[], d⟩) ⟨rfl, h⟩ cfg p).canvas

theorem Alike.resetPartOf (m : Nat) : Alike (resetPartOf cfg m c) (resetPartOf cfg m d) := by
  unfold Machine.resetPartOf
  split
  · unfold resetOf
    split
    · exact h.standardReset _
    · exact h.performProc cfg _
  · exact h

theorem Alike.renderMode (m : Nat) : Alike (renderMode cfg m c) (renderMode cfg m d) := by
  unfold Machine.renderMode
  split
  · unfold renderOf
    split
    · exact h.standardRender cfg _
    · exact h.performProc cfg _
  · exact (h.raise .unkmode).fill Rgb.black

end

/-- RESET starts from a black buffer and registers of 0, whatever was there (44_mode_sequencer.md R213). -/
theorem alike_resetMode {c d : Canvas} (hc : c.fb.wf = true) (hd : d.fb.wf = true) (hdraws : c.draws = d.draws)
    (hpos : c.drawPos = d.drawPos) (cfg : Config.Params) (m : Nat) :
    Alike (resetMode cfg m c) (resetMode cfg m d) := by
  have hcleared : Alike ((c.fill Rgb.black).withX ⟨0, 0, 0, 0⟩) ((d.fill Rgb.black).withX ⟨0, 0, 0, 0⟩) := by
    refine ⟨rfl, ?_, ?_, ?_⟩
    · rw [withX_fb, withX_fb, fill_fb_eq Rgb.black hc hd]
    · rw [withX_draws, withX_draws, fill_draws, fill_draws, hdraws]
    · rw [withX_drawPos, withX_drawPos, fill_drawPos, fill_drawPos, hpos]
  exact hcleared.resetPartOf cfg m

/-- Settles O40: RESET makes the two canvases alike, and the render keeps them so. -/
theorem resetIsolatesModes : Obligations.ResetIsolatesModes := by
  intro s u hs hu hsw huw hmode hbright hcfg hdraws hpos hsl hul
  have hframe : Alike s.frameCanvas u.frameCanvas := by
    rw [State.frameCanvas, State.frameCanvas, startCanvas_changed hsl, startCanvas_changed hul, hmode, hcfg]
    exact (alike_resetMode hsw huw hdraws hpos _ _).renderMode _ _
  have hdelay : delayOf s.cfg s.mode.toNat = delayOf u.cfg u.mode.toNat := by rw [hmode, hcfg]
  refine ⟨s.frameDone, u.frameDone, hs.exec_frame, hu.exec_frame, hframe.x, hframe.fb, hdelay, hframe.drawPos,
    _, rfl, ?_⟩
  rw [hframe.fb, hbright, hdelay]
  rfl

end Sys2Proof.Machine
end

section
/-! Frames one after another: with nothing to hold a frame up, the canvas goes through RESET once when the mode has
changed and through the mode's render once a frame (spec/44_mode_sequencer.md R210 to R213). -/

namespace Sys2Proof.Machine

/-! ### The next frame -/

theorem nextFrame_eq {s : State} (hu : s.Unhindered) :
    s.nextFrame = State.frameDone { s with delay := 0, issuer := .S } := by
  have hready : State.FrameReady { s with delay := 0, issuer := .S } :=
    { issuer_seq := rfl
      phase_wait := hu.phase_wait
      delay_zero := rfl
      no_latency := congrArg (fun l => l.headD 0) hu.no_latencies
      consumer_ready := hu.consumer_ready }
  rw [State.nextFrame, hready.exec_frame]
  rfl

/-- What a frame leaves for the next one. -/
structure FrameOf (s t : State) : Prop where
  unhindered : t.Unhindered
  cfg : t.cfg = s.cfg
  mode : t.mode = s.mode
  lastMode : t.lastMode = s.mode

theorem frameOf_nextFrame {s : State} (hu : s.Unhindered) :
    FrameOf s s.nextFrame ∧ s.nextFrame.canvas = s.frameCanvas := by
  rw [nextFrame_eq hu]
  refine ⟨⟨⟨rfl, ?_, ?_⟩, rfl, rfl, rfl⟩, rfl⟩
  · exact (takes_ready hu.consumer_ready numPix).2.trans hu.consumer_ready
  · exact congrArg List.tail hu.no_latencies

/-- `n + 1` frames are `n + 1` renders of what the first one found. -/
theorem canvas_frames {s : State} (hu : s.Unhindered) (n : Nat) :
    FrameOf s (s.frames (n + 1)) ∧
      (s.frames (n + 1)).canvas = (renderMode s.cfg s.mode.toNat)^[n + 1] s.startCanvas := by
  induction n with
  | zero => exact frameOf_nextFrame hu
  | succ n ih =>
    obtain ⟨hprev, hcanvas⟩ := ih
    obtain ⟨hnext, hrender⟩ := frameOf_nextFrame hprev.unhindered
    refine ⟨⟨hnext.unhindered, hnext.cfg.trans hprev.cfg, hnext.mode.trans hprev.mode,
      hnext.lastMode.trans hprev.mode⟩, hrender.trans ?_⟩
    rw [State.frameCanvas, startCanvas_same (hprev.mode.trans hprev.lastMode.symm), hprev.cfg, hprev.mode, hcanvas,
      ← Function.iterate_succ_apply' (renderMode s.cfg s.mode.toNat)]

/-! ### What the first frame finds, with the default table -/

/-- Modes 0 to 16 render by their own procedures, and have no part of RESET of their own (44_mode_sequencer.md R213,
R222). -/
theorem renderMode_of_mode {s : State} (ht : s.cfg.modeTable = modeTable) {m : Nat} (hm : m < 17)
    (h : s.mode = BitVec.ofNat 5 m) {f : Canvas → Canvas}
    (hf : ∀ c, standardRender s.cfg ⟨m, Nat.lt_trans hm (by decide)⟩ c = f c) :
    s.mode.toNat < numMode ∧ s.mode.toNat ≠ 17 ∧ ∀ c, renderMode s.cfg s.mode.toNat c = f c := by
  have hmode : s.mode.toNat = m := by
    rw [h, BitVec.toNat_ofNat]
    omega
  rw [hmode]
  exact ⟨Nat.lt_trans hm (by decide), Nat.ne_of_lt hm, fun c => (renderMode_default ht _ c).trans (hf c)⟩

/-- RESET of a mode that has no part of its own (44_mode_sequencer.md R213). -/
theorem startCanvas_entered {s : State} (ht : s.cfg.modeTable = modeTable) (hm : s.mode.toNat < numMode)
    (h17 : s.mode.toNat ≠ 17) (hl : s.mode ≠ s.lastMode) :
    s.startCanvas = (s.canvas.fill Rgb.black).withX ⟨0, 0, 0, 0⟩ := by
  rw [startCanvas_changed hl, resetMode_default ht hm, standardReset_eq_self _ h17]

theorem startCanvas_x {s : State} (ht : s.cfg.modeTable = modeTable) (hm : s.mode.toNat < numMode)
    (h17 : s.mode.toNat ≠ 17) : s.startCanvas.x = s.startBank := by
  by_cases hl : s.mode = s.lastMode
  · rw [startCanvas_same hl, State.startBank, if_pos hl, State.canvas_x]
  · rw [startCanvas_entered ht hm h17 hl, State.startBank, if_neg hl, withX_x]

theorem read_startCanvas {s : State} (ht : s.cfg.modeTable = modeTable) (hm : s.mode.toNat < numMode)
    (h17 : s.mode.toNat ≠ 17) (hw : s.fb.wf = true) {a : Nat} (ha : a < numPix) :
    s.startCanvas.fb.read a = s.startPixel a := by
  by_cases hl : s.mode = s.lastMode
  · rw [startCanvas_same hl, State.startPixel, if_pos hl, State.canvas_fb]
  · rw [startCanvas_entered ht hm h17 hl, State.startPixel, if_neg hl, withX_fb, read_fill _ _ hw, if_pos ha]

/-- The frames of a mode entered afresh are its renders of a black buffer and registers of 0. -/
theorem canvas_frames_entered {s : State} (hu : s.Unhindered) (ht : s.cfg.modeTable = modeTable)
    (hm : s.mode.toNat < numMode) (h17 : s.mode.toNat ≠ 17) (hl : s.mode ≠ s.lastMode) (hw : s.fb.wf = true)
    {f : Canvas → Canvas} (hf : ∀ c, renderMode s.cfg s.mode.toNat c = f c) (n : Nat) :
    ∃ c : Canvas, c.x = ⟨0, 0, 0, 0⟩ ∧ c.fb.wf = true ∧ (s.frames (n + 1)).canvas = f (f^[n] c) := by
  refine ⟨s.startCanvas, ?_, wf_startCanvas hw, ?_⟩
  · rw [startCanvas_entered ht hm h17 hl, withX_x]
  · rw [(canvas_frames hu n).2, funext hf, Function.iterate_succ_apply']

end Sys2Proof.Machine
end

section
/-! The bounce modes 12 and 13: the point sweeps its ring and back (spec/44_mode_sequencer.md R225;
spec/45_modes_0_13.md R252, R253). -/

namespace Sys2Proof.Machine

/-! ### The position after `n` moves -/

/-- The bank of a bounce mode `n` moves after it was entered. -/
structure BounceAt (n : Nat) (x : MsBank) : Prop where
  pos : x.x0.toNat = bouncePos n
  dir : x.x1 = if n % 94 < 47 then 0 else 1

theorem bounceAt_zero : BounceAt 0 ⟨0, 0, 0, 0⟩ := ⟨rfl, rfl⟩

theorem bouncePos_forward {n : Nat} (h : n % 94 < 47) : bouncePos n = n % 94 ∧ bouncePos (n + 1) = n % 94 + 1 := by
  simp only [bouncePos]
  split <;> split <;> omega

theorem bouncePos_backward {n : Nat} (h : ¬n % 94 < 47) :
    bouncePos n = 94 - n % 94 ∧ bouncePos (n + 1) = 94 - n % 94 - 1 := by
  simp only [bouncePos]
  split <;> split <;> omega

theorem bouncePos_le (n : Nat) : bouncePos n ≤ 47 := by
  simp only [bouncePos]
  split <;> omega

theorem BounceAt.bounceMove {n : Nat} {x : MsBank} (h : BounceAt n x) : BounceAt (n + 1) (bounceMove x) := by
  obtain ⟨hpos, hdir⟩ := h
  by_cases hf : n % 94 < 47
  · obtain ⟨hn, hn'⟩ := bouncePos_forward hf
    rw [if_pos hf] at hdir
    rw [bounceMove_forward hdir (by omega)]
    refine ⟨?_, ?_⟩
    · show (x.x0 + 1).toNat = _
      bv_omega
    · by_cases hend : x.x0.toNat = 46
      · exact (if_pos hend).trans (if_neg (by omega)).symm
      · exact (if_neg hend).trans (if_pos (by omega)).symm
  · obtain ⟨hn, hn'⟩ := bouncePos_backward hf
    rw [if_neg hf] at hdir
    rw [bounceMove_backward hdir (by omega) (by omega)]
    refine ⟨?_, ?_⟩
    · show (x.x0 - 1).toNat = _
      bv_omega
    · exact if_congr (by omega) rfl rfl

/-! ### The modes after `n` frames -/

/-- Mode 12 after `n` renders: the point has moved `n` times, its hue has stepped by 2 each time. -/
theorem iterate_bounce {c : Canvas} (hx : c.x = ⟨0, 0, 0, 0⟩) (hw : c.fb.wf = true) (n : Nat) :
    BounceAt n (bounce^[n] c).x ∧ (bounce^[n] c).x.x2.toNat = 2 * n % 256 ∧ (bounce^[n] c).fb.wf = true := by
  induction n with
  | zero =>
    rw [Function.iterate_zero_apply, hx]
    exact ⟨bounceAt_zero, rfl, hw⟩
  | succ n ih =>
    obtain ⟨hpos, hhue, hwf⟩ := ih
    rw [Function.iterate_succ_apply', bounce_x]
    refine ⟨⟨hpos.bounceMove.pos, hpos.bounceMove.dir⟩, ?_, (kept_bounce _).1 hwf⟩
    rw [addMod_toNat _ _ (by decide), hhue]
    omega

/-- Mode 13 after `n` renders. -/
theorem iterate_dualBounce {c : Canvas} (hx : c.x = ⟨0, 0, 0, 0⟩) (hw : c.fb.wf = true) (n : Nat) :
    BounceAt n (dualBounce^[n] c).x ∧ (dualBounce^[n] c).fb.wf = true := by
  induction n with
  | zero =>
    rw [Function.iterate_zero_apply, hx]
    exact ⟨bounceAt_zero, hw⟩
  | succ n ih =>
    rw [Function.iterate_succ_apply', dualBounce_x]
    exact ⟨ih.1.bounceMove, (kept_dualBounce _).1 ih.2⟩

/-- The picture of mode 12: the point on both rings, in the hue of the register (45_modes_0_13.md R252). -/
theorem read_bounce {c : Canvas} (hw : c.fb.wf = true) {p : Nat} (hp : p ≤ 47) (hx : c.x.x0.toNat = p) :
    (bounce c).fb.read p = hsvFull c.x.x2.toNat ∧ (bounce c).fb.read (95 - p) = hsvFull c.x.x2.toNat := by
  have hread := read_plot2 (p := p) (hsvFull c.x.x2.toNat) (c.fadeAll 60) (wf_fadeAll 60 c hw) (Nat.lt_succ_of_le hp)
  unfold bounce
  rw [withX_fb, hx, hread, hread, if_pos (.inl rfl), if_pos (.inr rfl)]
  exact ⟨rfl, rfl⟩

/-- A hue counts modulo 256 (44_mode_sequencer.md R220). -/
theorem hsvFull_mod (h : Nat) : hsvFull (h % 256) = hsv2rgb (BitVec.ofNat 8 h) 255 255 := by
  have hbyte : byteField (h % 256) = BitVec.ofNat 8 h := by
    apply BitVec.eq_of_toNat_eq
    simp only [byteField, BitVec.toNat_ofNat]
    omega
  rw [hsvFull, hbyte]

/-- The picture of mode 13: the point in red, the opposite one in blue (45_modes_0_13.md R253). The two never meet,
for the ring has an even number of positions. -/
theorem read_dualBounce {c : Canvas} (hw : c.fb.wf = true) {p : Nat} (hp : p ≤ 47) (hx : c.x.x0.toNat = p) :
    (dualBounce c).fb.read p = Rgb.red ∧ (dualBounce c).fb.read (95 - p) = Rgb.red ∧
      (dualBounce c).fb.read (47 - p) = Rgb.blue ∧ (dualBounce c).fb.read (48 + p) = Rgb.blue := by
  have hred := read_plot2 (p := p) Rgb.red (c.fadeAll 40) (wf_fadeAll 40 c hw) (Nat.lt_succ_of_le hp)
  have hblue := read_plot2 (p := 47 - p) Rgb.blue ((c.fadeAll 40).plot2 p Rgb.red)
    (wf_plot2 p Rgb.red _ (wf_fadeAll 40 c hw)) (by omega)
  unfold dualBounce
  rw [withX_fb, hx, hblue, hblue, hblue, hblue, hred, hred]
  refine ⟨?_, ?_, ?_, ?_⟩
  · rw [if_neg (by omega), if_pos (.inl rfl)]
  · rw [if_neg (by omega), if_pos (.inr rfl)]
  · rw [if_pos (.inl rfl)]
  · rw [if_pos (.inr (by omega))]

/-- Settles O46: a frame of either mode is its render, applied to the bank and the buffer after the moves before. -/
theorem bouncePositionSweeps : Obligations.BouncePositionSweeps := by
  intro s n hu ht hw hm hl hn shown p
  obtain ⟨k, rfl⟩ := Nat.exists_eq_add_of_le' hn
  obtain h12 | h13 := hm
  · obtain ⟨hlt, h17, hrender⟩ := renderMode_of_mode ht (m := 12) (by decide) h12 (f := bounce) fun _ => rfl
    obtain ⟨c, hx, hwf, hcanvas⟩ := canvas_frames_entered hu ht hlt h17 hl.symm hw hrender k
    obtain ⟨hnow, -⟩ := iterate_bounce hx hwf (k + 1)
    obtain ⟨hprev, hhue, hwfprev⟩ := iterate_bounce hx hwf k
    obtain ⟨hA, hB⟩ := read_bounce hwfprev (bouncePos_le k) hprev.pos
    rw [hhue, hsvFull_mod] at hA hB
    rw [Function.iterate_succ_apply', ← hcanvas] at hnow
    rw [← hcanvas] at hA hB
    exact ⟨hnow.pos, hnow.dir, fun _ => ⟨hA, hB.trans hA.symm⟩, fun h => absurd (h12.symm.trans h) (by decide)⟩
  · obtain ⟨hlt, h17, hrender⟩ := renderMode_of_mode ht (m := 13) (by decide) h13 (f := dualBounce) fun _ => rfl
    obtain ⟨c, hx, hwf, hcanvas⟩ := canvas_frames_entered hu ht hlt h17 hl.symm hw hrender k
    obtain ⟨hnow, -⟩ := iterate_dualBounce hx hwf (k + 1)
    obtain ⟨hprev, hwfprev⟩ := iterate_dualBounce hx hwf k
    have hshown := read_dualBounce hwfprev (bouncePos_le k) hprev.pos
    rw [Function.iterate_succ_apply', ← hcanvas] at hnow
    rw [← hcanvas] at hshown
    exact ⟨hnow.pos, hnow.dir, fun h => absurd (h13.symm.trans h) (by decide), fun _ => hshown⟩

end Sys2Proof.Machine
end

section
/-! The rotating patterns, modes 3, 5, 6 and 7: the window test counts steps round the ring, and ROTATE paints every
position by it (spec/44_mode_sequencer.md R224; spec/45_modes_0_13.md R243, R245 to R247). -/

namespace Sys2Proof.Machine

/-! ### The window test -/

/-- Two positions are within `w` steps when so many steps at most lead from one to the other, either way
(40_ring_geometry.md R114). -/
theorem cdist_le_iff {p q : Nat} (hp : p ≤ 47) (hq : q ≤ 47) (w : Nat) :
    cdist (posField p) (posField q) ≤ w ↔ ∃ k ≤ w, (p + k) % 48 = q ∨ (q + k) % 48 = p := by
  obtain ⟨hab, hto⟩ := cfwd_spec (posField p) (posField q)
  obtain ⟨hba, hback⟩ := cfwd_spec (posField q) (posField p)
  rw [posField_toNat (by omega), posField_toNat (by omega)] at hto hback
  rw [cdist_eq_min_cfwd, min_le_iff]
  constructor
  · rintro (h | h)
    · exact ⟨_, h, .inl (by omega)⟩
    · exact ⟨_, h, .inr (by omega)⟩
  · rintro ⟨k, hk, h | h⟩
    · exact .inl (by omega)
    · exact .inr (by omega)

/-- The test of ROTATE, by steps (44_mode_sequencer.md R224). -/
theorem inWindow_iff {n w off p : Nat} (hp : p ≤ 47) : inWindow n w off p = true ↔
    ∃ j k : Nat, j < n ∧ k ≤ w ∧
      ((p + k) % 48 = (off + j * (48 / n)) % 48 ∨ (off + j * (48 / n) + k) % 48 = p) := by
  have hcentre (j : Nat) : (off + j * (48 / n)) % 48 ≤ 47 := Nat.le_of_lt_succ (Nat.mod_lt _ (by decide))
  simp only [inWindow, List.any_eq_true, List.mem_range, decide_eq_true_eq, cdist_le_iff hp (hcentre _),
    Nat.mod_add_mod, exists_and_left]

/-! ### Painting by a test -/

/-- A loop over logical positions that plots those passing a test: on both rings a position plotted shows its
colour, any other what was there (44_mode_sequencer.md R221). -/
theorem read_loop_plot2 (test : Nat → Bool) (col : Rgb) {c : Canvas} (hw : c.fb.wf = true) {n : Nat} (hn : n ≤ 48)
    {p a : Nat} (hp : p ≤ 47) (ha : a = p ∨ a = 95 - p) :
    (loop n (fun q c' => if test q then c'.plot2 q col else c') c).fb.read a =
      if p < n ∧ test p = true then col else c.fb.read a := by
  have hwf (q : Nat) : (loop q (fun q c' => if test q then c'.plot2 q col else c') c).fb.wf = true :=
    ((Kept.refl c).loop fun q e _ => ((Kept.refl e).plot2 q col).ite _ (Kept.refl e)).1 hw
  induction n with
  | zero => rw [loop_zero, if_neg (fun h => absurd h.1 (Nat.not_lt_zero p))]
  | succ n ih =>
    have hplot := read_plot2 col _ (hwf n) (show n < 48 by omega) a
    have hsame : (a = n ∨ a = 95 - n) ↔ p = n := by omega
    rw [loop_succ]
    by_cases htest : test n = true
    · rw [if_pos htest, hplot, ih (by omega)]
      by_cases hpn : p = n
      · rw [if_pos (hsame.2 hpn), if_pos ⟨by omega, hpn ▸ htest⟩]
      · rw [if_neg (mt hsame.1 hpn)]
        exact if_congr (and_congr_left' (by omega)) rfl rfl
    · rw [if_neg htest, ih (by omega)]
      refine if_congr (and_congr_left fun hp' => ?_) rfl rfl
      have hpn : p ≠ n := fun h => htest (h ▸ hp')
      omega

/-- ROTATE paints the positions its test picks on a background that is black, or what was there faded
(44_mode_sequencer.md R224). -/
theorem read_rotate {n w step : Nat} {bg : Byte} {invert : Bool} {fixed : Option Rgb} {hstep : Nat} {c : Canvas}
    (hw : c.fb.wf = true) {p a : Nat} (hp : p ≤ 47) (ha : a = p ∨ a = 95 - p) :
    (rotate n w step bg invert fixed hstep c).fb.read a =
      if (inWindow n w c.x.x0.toNat p != invert) = true then fixed.getD (hsvFull c.x.x1.toNat)
      else if bg = 0 then Rgb.black else fadeRgb bg (c.fb.read a) := by
  have hpix : a < numPix := by simp only [numPix]; omega
  have hground : (if bg = 0 then c.fill Rgb.black else c.fadeAll bg).fb.wf = true ∧
      (if bg = 0 then c.fill Rgb.black else c.fadeAll bg).fb.read a =
        if bg = 0 then Rgb.black else fadeRgb bg (c.fb.read a) := by
    split
    · exact ⟨wf_fill _ c hw, (read_fill _ c hw a).trans (if_pos hpix)⟩
    · exact ⟨wf_fadeAll bg c hw, read_fadeAll_all bg c hw a⟩
  rw [← hground.2]
  refine (read_loop_plot2 (fun q => inWindow n w c.x.x0.toNat q != invert) _ hground.1 (Nat.le_refl 48) hp ha).trans
    (if_congr ?_ rfl rfl)
  exact and_iff_right (Nat.lt_succ_of_le hp)

/-! ### The four modes -/

/-- The rows of R243, R245, R246 and R247: mode, windows, width, step, background, inversion, colour, hue step. -/
def rotatingModes : List (BitVec 5 × Nat × Nat × Nat × Byte × Bool × Option Rgb × Nat) :=
  [(3, 2, 2, 1, 0, false, none, 1), (5, 1, 0, 2, 60, false, some Rgb.red, 0), (6, 1, 3, 1, 0, true, none, 2),
    (7, 4, 1, 3, 0, false, none, 4)]

/-- Each of the four is ROTATE with the parameters of its row, and has no part of RESET of its own. -/
theorem renderMode_rotating {s : State} (ht : s.cfg.modeTable = modeTable) {n w step : Nat} {bg : Byte}
    {invert : Bool} {fixed : Option Rgb} {hstep : Nat}
    (hmem : (s.mode, n, w, step, bg, invert, fixed, hstep) ∈ rotatingModes) :
    s.mode.toNat < numMode ∧ s.mode.toNat ≠ 17 ∧
      ∀ c, renderMode s.cfg s.mode.toNat c = rotate n w step bg invert fixed hstep c := by
  simp only [rotatingModes, List.mem_cons, List.not_mem_nil, or_false, Prod.mk.injEq] at hmem
  obtain ⟨h, rfl, rfl, rfl, rfl, rfl, rfl, rfl⟩ | ⟨h, rfl, rfl, rfl, rfl, rfl, rfl, rfl⟩ |
    ⟨h, rfl, rfl, rfl, rfl, rfl, rfl, rfl⟩ | ⟨h, rfl, rfl, rfl, rfl, rfl, rfl, rfl⟩ := hmem
  · exact renderMode_of_mode ht (m := 3) (by decide) h fun _ => rfl
  · exact renderMode_of_mode ht (m := 5) (by decide) h fun _ => rfl
  · exact renderMode_of_mode ht (m := 6) (by decide) h fun _ => rfl
  · exact renderMode_of_mode ht (m := 7) (by decide) h fun _ => rfl

/-- The positions painted, in either polarity of the test. -/
theorem bne_invert_of_iff {b invert : Bool} {inside : Prop} (h : b = true ↔ inside) :
    ((inside ↔ invert = false) → (b != invert) = true) ∧ ((inside ↔ invert = true) → ¬(b != invert) = true) := by
  rw [← h]
  cases b <;> cases invert <;> decide

/-- Settles O54: the four modes are ROTATE, whose picture is read off position by position. -/
theorem rotatingPatternsLightWindows : Obligations.RotatingPatternsLightWindows := by
  intro s m n w step bg invert fixed hstep hmem hs ht hw hmode _ x0 x1 colour ground
  obtain ⟨hm, h17, hrotate⟩ := renderMode_rotating ht (show (s.mode, _) ∈ rotatingModes from hmode ▸ hmem)
  have hframe : s.frameCanvas = rotate n w step bg invert fixed hstep s.startCanvas := hrotate _
  have hx : s.startCanvas.x = s.startBank := startCanvas_x ht hm h17
  refine ⟨s.frameDone, hs.exec_frame, ?_, ?_, fun p hp => ?_⟩
  · show s.frameCanvas.x.x0.toNat = _
    rw [hframe, rotate_x, hx]
    exact addMod_toNat _ _ (by decide)
  · show s.frameCanvas.x.x1.toNat = _
    rw [hframe, rotate_x, hx]
    exact addMod_toNat _ _ (by decide)
  · have hread {a : Nat} (ha : a = p ∨ a = 95 - p) : s.frameDone.fb.read a =
        if (inWindow n w x0 p != invert) = true then colour else ground a := by
      have hpix : a < numPix := by simp only [numPix]; omega
      show s.frameCanvas.fb.read a = _
      rw [hframe, read_rotate (wf_startCanvas hw) hp ha, hx, read_startCanvas ht hm h17 hw hpix]
      rfl
    obtain ⟨hlit, hdark⟩ := bne_invert_of_iff (invert := invert) (inWindow_iff (n := n) (w := w) (off := x0) hp)
    refine ⟨fun h => ?_, fun h => ?_⟩
    · exact ⟨(hread (.inl rfl)).trans (if_pos (hlit h)), (hread (.inr rfl)).trans (if_pos (hlit h))⟩
    · exact ⟨(hread (.inl rfl)).trans (if_neg (hdark h)), (hread (.inr rfl)).trans (if_neg (hdark h))⟩

end Sys2Proof.Machine
end

section
/-! Frames by induction, and what an operation on both rings shows at a logical position
(spec/44_mode_sequencer.md R210 to R214, R221; spec/40_ring_geometry.md R117). -/

namespace Sys2Proof.Machine

/-! ### The frames of a mode -/

theorem mode_toNat {s : State} {m : Fin numMode} (h : s.mode = BitVec.ofNat 5 m.val) : s.mode.toNat = m.val := by
  rw [h, BitVec.toNat_ofNat, Nat.mod_eq_of_lt (Nat.lt_trans m.isLt (by decide))]

/-- A mode of the default table other than shockwave renders by its own procedure, and has no part of RESET of its own
(44_mode_sequencer.md R213, R222). -/
theorem renderMode_of_standard {s : State} (ht : s.cfg.modeTable = modeTable) {m : Fin numMode} (h17 : m.val ≠ 17)
    (h : s.mode = BitVec.ofNat 5 m.val) {f : Canvas → Canvas} (hf : ∀ c, standardRender s.cfg m c = f c) :
    s.mode.toNat < numMode ∧ s.mode.toNat ≠ 17 ∧ ∀ c, renderMode s.cfg s.mode.toNat c = f c := by
  rw [mode_toNat h]
  exact ⟨m.isLt, h17, fun c => (renderMode_default ht m.isLt c).trans (hf c)⟩

/-- What the first render finds, and every render carries on, holds of the canvas the last render finds. -/
theorem frames_induct {s : State} (hu : s.Unhindered) {f : Canvas → Canvas}
    (hf : ∀ c, renderMode s.cfg s.mode.toNat c = f c) {P : Nat → Canvas → Prop} (h0 : P 0 s.startCanvas)
    (hstep : ∀ k c, P k c → P (k + 1) (f c)) (n : Nat) : ∃ c, P n c ∧ (s.frames (n + 1)).canvas = f c := by
  refine ⟨f^[n] s.startCanvas, ?_, ?_⟩
  · induction n with
    | zero => exact h0
    | succ n ih =>
      rw [Function.iterate_succ_apply']
      exact hstep n _ ih
  · rw [(canvas_frames hu n).2, funext hf, Function.iterate_succ_apply']

/-! ### A logical position on both rings -/

/-- The index `a` is logical position `p` of one of the rings (40_ring_geometry.md R117). -/
def AtPos (p a : Nat) : Prop := p ≤ 47 ∧ (a = p ∨ a = 95 - p)

theorem AtPos.ringA {p : Nat} (hp : p ≤ 47) : AtPos p p := ⟨hp, .inl rfl⟩

theorem AtPos.ringB {p : Nat} (hp : p ≤ 47) : AtPos p (95 - p) := ⟨hp, .inr rfl⟩

theorem AtPos.lt_numPix {p a : Nat} (ha : AtPos p a) : a < numPix := by
  obtain ⟨hp, rfl | rfl⟩ := ha <;> simp only [numPix] <;> omega

/-- An operation on position `q` of both rings meets this index when `q` is its position. -/
theorem AtPos.index_iff {p q a : Nat} (ha : AtPos p a) (hq : q < 48) : (a = q ∨ a = 95 - q) ↔ p = q := by
  obtain ⟨hp, ha⟩ := ha
  omega

theorem read_plot2_at {p q a : Nat} (ha : AtPos p a) (hq : q < 48) (rgb : Rgb) {c : Canvas} (hw : c.fb.wf = true) :
    (c.plot2 q rgb).fb.read a = if p = q then rgb else c.fb.read a :=
  (read_plot2 rgb c hw hq a).trans (if_congr (ha.index_iff hq) rfl rfl)

/-- ADD2 blends once into the pixel at its position of either ring (30_encoding.md R91). -/
theorem read_add2_at {p q a : Nat} (ha : AtPos p a) (hq : q < 48) (rgb : Rgb) {c : Canvas} (hw : c.fb.wf = true) :
    (c.add2 q rgb).fb.read a = if p = q then addRgb rgb (c.fb.read a) else c.fb.read a := by
  have hA : (mapPix .A (posField q)).toNat = q := by
    rw [mapPix_A, posField_toNat (by omega), Nat.mod_eq_of_lt hq]
  have hB : (mapPix .B (posField q)).toNat = 95 - q := by
    rw [mapPix_B, posField_toNat (by omega)]
    omega
  have hreadA := read_updatePix _ (addRgb rgb) c hw (mapPix_lt .A (posField q)) a
  have hreadB := read_updatePix _ (addRgb rgb) _ (wf_addPix (mapPix .A (posField q)) rgb c hw)
    (mapPix_lt .B (posField q)) a
  rw [hA] at hreadA
  rw [hB] at hreadB
  refine hreadB.trans (Eq.trans ?_ (if_congr (ha.index_iff hq) rfl rfl))
  by_cases hb : a = 95 - q
  · rw [if_pos hb, if_pos (.inr hb)]
    exact congrArg (addRgb rgb) (hreadA.trans (if_neg (by omega)))
  · rw [if_neg hb]
    exact hreadA.trans (if_congr (or_iff_left hb).symm rfl rfl)

/-! ### Counting on -/

/-- One more number counts among those below a bound. -/
theorem ite_lt_succ (e k : Nat) (x y : Rgb) :
    (if e < k + 1 then x else y) = if e = k then x else if e < k then x else y := by
  rw [← ite_or]
  exact if_congr (by omega) rfl rfl

theorem byteField_toNat (n : Nat) : (byteField n).toNat = n % 256 := BitVec.toNat_ofNat n 8

/-- A byte holds a number modulo 256 (44_mode_sequencer.md R220). -/
theorem byteField_of_mod {m n : Nat} (h : m % 256 = n % 256) : byteField m = BitVec.ofNat 8 n :=
  BitVec.eq_of_toNat_eq (by rw [byteField_toNat, h, BitVec.toNat_ofNat])

end Sys2Proof.Machine
end

section
/-! Mode 0, the rainbow: the counter steps, then every position takes its hue (spec/45_modes_0_13.md R240;
spec/41_color_utilities.md R135). -/

namespace Sys2Proof.Machine

/-- A loop over logical positions that plots each in a colour of its own. -/
theorem read_loop_plot2_each (colour : Nat → Rgb) {c : Canvas} (hw : c.fb.wf = true) {n : Nat} (hn : n ≤ 48)
    {p a : Nat} (ha : AtPos p a) :
    (loop n (fun q c' => c'.plot2 q (colour q)) c).fb.read a = if p < n then colour p else c.fb.read a := by
  have hwf (q : Nat) : (loop q (fun q c' => c'.plot2 q (colour q)) c).fb.wf = true :=
    ((Kept.refl c).loop fun q e _ => (Kept.refl e).plot2 q (colour q)).1 hw
  induction n with
  | zero => rfl
  | succ n ih =>
    rw [loop_succ, read_plot2_at ha hn _ (hwf n), ih (by omega), ite_lt_succ]
    exact ite_congr rfl (fun hpn => congrArg colour hpn.symm) fun _ => rfl

/-- The hue distribution over a ring as one byte (41_color_utilities.md R135). -/
theorem hueDist_of_mod {start h p : Nat} (hstart : start % 256 = h % 256) (hp : p ≤ 47) :
    hueDist (byteField start) 48 (byteField p) = BitVec.ofNat 8 (h + 256 * p / 48) := by
  apply BitVec.eq_of_toNat_eq
  rw [hueDist_toNat, byteField_toNat, byteField_toNat, BitVec.toNat_ofNat, show (48 : Byte).toNat = 48 from rfl,
    Nat.mod_eq_of_lt (show p < 256 by omega)]
  omega

/-- The picture of mode 0, by the counter before its step (45_modes_0_13.md R240). -/
theorem read_rainbow {c : Canvas} (hw : c.fb.wf = true) {h : Nat} (hx : c.x.x0.toNat = h % 256) {p a : Nat}
    (ha : AtPos p a) :
    (rainbow c).fb.read a = hsv2rgb (BitVec.ofNat 8 (h + 1 + 256 * p / 48)) 255 255 := by
  have hstep : (addMod c.x.x0 1 256).toNat % 256 = (h + 1) % 256 := by
    rw [addMod_toNat _ _ (by decide), hx]
    omega
  rw [← hueDist_of_mod hstep ha.1]
  exact (read_loop_plot2_each
    (fun q => hsv2rgb (hueDist (byteField (addMod c.x.x0 1 256).toNat) 48 (byteField q)) 255 255)
    (c := c.withX { c.x with x0 := addMod c.x.x0 1 256 }) hw (Nat.le_refl 48) ha).trans
    (if_pos (Nat.lt_succ_of_le ha.1))

/-- Settles O44, by induction on the frames: each finds the counter one further. -/
theorem rainbowAdvancesByOne : Obligations.RainbowAdvancesByOne := by
  intro s n hu ht hm hl hw hx
  obtain ⟨-, -, hrender⟩ := renderMode_of_standard ht (m := 0) (by decide) hm (f := rainbow) fun _ => rfl
  cases n with
  | zero => exact ⟨(Nat.mod_eq_of_lt (Nat.lt_succ_of_le hx)).symm, fun h => absurd h (by decide)⟩
  | succ n =>
    have hcount (k : Nat) (c : Canvas) (h : c.x.x0.toNat = (s.x.x0.toNat + k) % 256) :
        (rainbow c).x.x0.toNat = (s.x.x0.toNat + (k + 1)) % 256 := by
      rw [rainbow_x, addMod_toNat _ _ (by decide), h]
      omega
    obtain ⟨c, ⟨hwf, hnow⟩, hcanvas⟩ := frames_induct hu hrender
      (P := fun k c => c.fb.wf = true ∧ c.x.x0.toNat = (s.x.x0.toNat + k) % 256)
      (by
        rw [startCanvas_same (hm.trans hl.symm)]
        exact ⟨hw, (Nat.mod_eq_of_lt (Nat.lt_succ_of_le hx)).symm⟩)
      (fun k c h => ⟨(kept_rainbow c).1 h.1, hcount k c h.2⟩) n
    have hread {p a : Nat} (ha : AtPos p a) : (s.frames (n + 1)).fb.read a =
        hsv2rgb (BitVec.ofNat 8 (s.x.x0.toNat + (n + 1) + 256 * p / 48)) 255 255 :=
      (congrArg (fun d : Canvas => d.fb.read a) hcanvas).trans (read_rainbow hwf hnow ha)
    refine ⟨(congrArg (fun d : Canvas => d.x.x0.toNat) hcanvas).trans (hcount n c hnow), fun _ p hp => ?_⟩
    exact ⟨hread (.ringA hp), (hread (.ringB hp)).trans (hread (.ringA hp)).symm⟩

end Sys2Proof.Machine
end

section
/-! Mode 4, the side-wipe: blue grows from both ends to the middle, then red over it (spec/45_modes_0_13.md R244). -/

namespace Sys2Proof.Machine

/-! ### The picture of the two wipes -/

/-- The colour `e` positions from the nearer end after `n` frames of one blue and one red wipe. -/
def wipeColour (n e : Nat) : Rgb :=
  if n ≤ 24 then (if e < n then Rgb.blue else Rgb.black) else if e < n - 24 then Rgb.red else Rgb.blue

theorem wipeColour_blue {n : Nat} (hn : n ≤ 24) (e : Nat) :
    wipeColour n e = if e < n then Rgb.blue else Rgb.black := if_pos hn

/-- The red wipe begins when all is blue. -/
theorem wipeColour_red {n e : Nat} (hn : 24 ≤ n) (he : e < 24) :
    wipeColour n e = if e < n - 24 then Rgb.red else Rgb.blue := by
  obtain rfl | hn := Nat.eq_or_lt_of_le hn
  · exact if_pos he
  · exact if_neg (Nat.not_le.2 hn)

/-- One more frame paints the next position from either end. -/
theorem wipeColour_succ (n : Nat) {e : Nat} (he : e < 24) (hn : n < 48) : wipeColour (n + 1) e =
    if e = n % 24 then (if n < 24 then Rgb.blue else Rgb.red) else wipeColour n e := by
  obtain hblue | hred := Nat.lt_or_ge n 24
  · rw [wipeColour_blue hblue, wipeColour_blue hblue.le, if_pos hblue, Nat.mod_eq_of_lt hblue, ite_lt_succ]
  · rw [wipeColour_red (by omega) he, wipeColour_red hred he, if_neg (Nat.not_lt.2 hred),
      show n % 24 = n - 24 by omega, Nat.sub_add_comm hred, ite_lt_succ]

/-! ### A frame of the mode -/

/-- A frame paints the position of its counter from either end, in the colour of its flag (45_modes_0_13.md R244). -/
theorem read_sideWipe {c : Canvas} (hw : c.fb.wf = true) (hx : c.x.x0.toNat < 24) {p a : Nat} (ha : AtPos p a) :
    (sideWipe c).fb.read a = if min p (47 - p) = c.x.x0.toNat then (if c.x.x1 = 0 then Rgb.blue else Rgb.red)
      else c.fb.read a := by
  have hp := ha.1
  unfold sideWipe
  rw [withX_fb, read_plot2_at ha (by omega) _ (wf_plot2 _ _ c hw), read_plot2_at ha (by omega) _ hw, ← ite_or]
  exact if_congr (by omega) rfl rfl

/-- The canvas `n` frames after the mode was entered: the bank counts the 24 frames of each wipe, the picture is that of
`wipeColour`. -/
structure WipeAt (n : Nat) (c : Canvas) : Prop where
  wf : c.fb.wf = true
  count : c.x.x0.toNat = n % 24
  flag : c.x.x1 = if n / 24 = 1 then 1 else 0
  shown : ∀ p a, AtPos p a → c.fb.read a = wipeColour n (min p (47 - p))

theorem WipeAt.flag_zero_iff {n : Nat} {c : Canvas} (h : WipeAt n c) (hn : n < 48) : c.x.x1 = 0 ↔ n < 24 := by
  rw [h.flag, ite_eq_right_iff]
  exact ⟨fun h1 => by_contra fun h24 => absurd (h1 (by omega)) (by decide), fun h24 h1 => by omega⟩

/-- The counter starts again, and the flag turns, with the last frame of a wipe (45_modes_0_13.md R244). -/
theorem WipeAt.sideWipe_bank {n : Nat} {c : Canvas} (h : WipeAt n c) (hn : n < 48) :
    (sideWipe c).x.x0.toNat = (n + 1) % 24 ∧ (sideWipe c).x.x1 = if (n + 1) / 24 = 1 then 1 else 0 := by
  have hcount := h.count
  rw [sideWipe_x]
  by_cases hlast : n % 24 = 23
  · rw [if_pos (show c.x.x0 + 1 = 24 by bv_omega)]
    exact ⟨show 0 = _ by omega, if_congr ((h.flag_zero_iff hn).trans (by omega)) rfl rfl⟩
  · rw [if_neg (show ¬c.x.x0 + 1 = 24 by bv_omega)]
    exact ⟨show (c.x.x0 + 1).toNat = _ by bv_omega, h.flag.trans (if_congr (by omega) rfl rfl)⟩

theorem WipeAt.sideWipe {n : Nat} {c : Canvas} (h : WipeAt n c) (hn : n < 48) : WipeAt (n + 1) (sideWipe c) := by
  obtain ⟨hcount, hflag⟩ := h.sideWipe_bank hn
  have hlt : c.x.x0.toNat < 24 := h.count ▸ Nat.mod_lt n (by decide)
  refine ⟨(kept_sideWipe c).1 h.wf, hcount, hflag, fun p a ha => ?_⟩
  rw [read_sideWipe h.wf hlt ha, h.shown p a ha, h.count, wipeColour_succ n (by omega) hn,
    if_congr (h.flag_zero_iff hn) rfl rfl]

/-! ### The obligation -/

/-- Settles O45, by induction on the frames of the two wipes. -/
theorem sideWipePaintsFromEnds : Obligations.SideWipePaintsFromEnds := by
  intro s n p hu ht hm hl hw hn hn48 hp
  have hchanged : s.mode ≠ s.lastMode := fun h => hl (h.symm.trans hm)
  obtain ⟨hlt, h17, hrender⟩ := renderMode_of_standard ht (m := 4) (by decide) hm (f := sideWipe) fun _ => rfl
  have hstart : WipeAt 0 s.startCanvas := by
    have hx : s.startCanvas.x = ⟨0, 0, 0, 0⟩ := (startCanvas_x ht hlt h17).trans (if_neg hchanged)
    refine ⟨wf_startCanvas hw, congrArg (fun x => x.x0.toNat) hx, congrArg MsBank.x1 hx, fun p a ha => ?_⟩
    exact (read_startCanvas ht hlt h17 hw ha.lt_numPix).trans (if_neg hchanged)
  obtain ⟨k, rfl⟩ := Nat.exists_eq_add_of_le' hn
  obtain ⟨c, hwipe, hcanvas⟩ := frames_induct hu hrender (P := fun k c => k < 48 → WipeAt k c) (fun _ => hstart)
    (fun k c ih hk => (ih (by omega)).sideWipe (by omega)) k
  have hnow : WipeAt (k + 1) (s.frames (k + 1)).canvas := hcanvas ▸ (hwipe (by omega)).sideWipe (by omega)
  have hA := hnow.shown p p (.ringA hp)
  exact ⟨hA, (hnow.shown p _ (.ringB hp)).trans hA.symm⟩

end Sys2Proof.Machine
end

section
/-! The modes that fill the whole buffer, 1, 2, 20 and 22 to 26: the registers count the frames, and each frame is one
colour (spec/45_modes_0_13.md R241, R242; spec/46_modes_14_26.md R260, R262 to R266). -/

namespace Sys2Proof.Machine

/-! ### A mode that fills -/

/-- The two registers a filling mode may use, by their values. -/
structure Counters (x0 x1 : Nat) (x : MsBank) : Prop where
  x0_eq : x.x0.toNat = x0
  x1_eq : x.x1.toNat = x1

/-- From a black start the render `f` finds the registers at `x0 n` and `x1 n` in frame `n`, and fills the buffer with
`colour n`. -/
structure FillCycle (f : Canvas → Canvas) (x0 x1 : Nat → Nat) (colour : Nat → Rgb) : Prop where
  start : x0 0 = 0 ∧ x1 0 = 0
  advance : ∀ n c, Counters (x0 n) (x1 n) c.x → Counters (x0 (n + 1)) (x1 (n + 1)) (f c).x
  paint : ∀ n c, Counters (x0 n) (x1 n) c.x → (f c).fb = (c.fill (colour n)).fb

/-- The frames of such a mode, entered afresh. -/
theorem FillCycle.read_frames {f : Canvas → Canvas} {x0 x1 : Nat → Nat} {colour : Nat → Rgb}
    (hc : FillCycle f x0 x1 colour) {s : State} (hu : s.Unhindered) (ht : s.cfg.modeTable = modeTable)
    (hl : s.lastMode ≠ s.mode) (hw : s.fb.wf = true) {m : Fin numMode} (h17 : m.val ≠ 17)
    (hm : s.mode = BitVec.ofNat 5 m.val) (hf : ∀ c, standardRender s.cfg m c = f c) (n : Nat) {a : Nat} (ha : a ≤ 95) :
    (s.frames (n + 1)).fb.read a = colour n := by
  obtain ⟨hlt, h17', hrender⟩ := renderMode_of_standard ht h17 hm hf
  have hx : s.startCanvas.x = ⟨0, 0, 0, 0⟩ := (startCanvas_x ht hlt h17').trans (if_neg hl.symm)
  have hstart : Counters (x0 0) (x1 0) s.startCanvas.x := by
    rw [hx, hc.start.1, hc.start.2]
    exact ⟨rfl, rfl⟩
  have hstep (k : Nat) (c : Canvas) (h : c.fb.wf = true ∧ Counters (x0 k) (x1 k) c.x) :
      (f c).fb.wf = true ∧ Counters (x0 (k + 1)) (x1 (k + 1)) (f c).x := by
    rw [hc.paint k c h.2]
    exact ⟨wf_fill _ c h.1, hc.advance k c h.2⟩
  obtain ⟨c, ⟨hwf, hcount⟩, hcanvas⟩ := frames_induct hu hrender ⟨wf_startCanvas hw, hstart⟩ hstep n
  have hfb : (s.frames (n + 1)).fb = (c.fill (colour n)).fb := (congrArg Canvas.fb hcanvas).trans (hc.paint n c hcount)
  rw [hfb, read_fill _ c hwf, if_pos (Nat.lt_succ_of_le ha)]

/-! ### Registers and colours by their values -/

/-- Filling by a test is filling with a colour chosen by it. -/
theorem ite_fill (p : Prop) [Decidable p] (c : Canvas) (x y : Rgb) :
    (if p then c.fill x else c.fill y) = c.fill (if p then x else y) := (apply_ite (fun rgb => c.fill rgb) p x y).symm

theorem eq_zero_iff_toNat (v : BitVec 16) : v = 0 ↔ v.toNat = 0 := (BitVec.toNat_inj (y := 0)).symm

/-- A flag of one bit turns over. -/
theorem xor_one_toNat {v : BitVec 16} {n : Nat} (h : v.toNat = n % 2) : (v ^^^ 1).toNat = (n + 1) % 2 := by
  obtain rfl | rfl : v = 0 ∨ v = 1 := by bv_omega
  · have hn : 0 = n % 2 := h
    exact show 1 = (n + 1) % 2 by omega
  · have hn : 1 = n % 2 := h
    exact show 0 = (n + 1) % 2 by omega

/-- A hue that steps in some frames only. -/
theorem stepHue_toNat {p q : Prop} [Decidable p] [Decidable q] (hpq : p ↔ q) (w : BitVec 16) (hue : Nat) :
    (if p then addMod w hue 256 else w).toNat = if q then (w.toNat + hue) % 256 else w.toNat := by
  rw [apply_ite BitVec.toNat, addMod_toNat _ _ (by decide)]
  exact if_congr hpq rfl rfl

/-- The triangle sees the low byte of its argument only (42_oscillators.md R152). -/
theorem triWave_congr {m n : Nat} (h : m % 256 = n % 256) : triWave m = triWave n := by
  simp only [triWave, h]

/-! ### The cycle of each mode -/

theorem fillCycle_solidColour : FillCycle solidColour (fun _ => 0) (fun _ => 0) fun _ => Rgb.red where
  start := ⟨rfl, rfl⟩
  advance _ c h := (solidColour_x c).symm ▸ h
  paint _ _ _ := rfl

theorem fillCycle_toggledFlash : FillCycle toggledFlash (fun n => n % 2) (fun _ => 0)
    fun n => if n % 2 = 0 then Rgb.blue else Rgb.black where
  start := ⟨rfl, rfl⟩
  advance _ _ h := ⟨xor_one_toNat h.x0_eq, h.x1_eq⟩
  paint n c h := by
    unfold toggledFlash
    rw [withX_fb, ite_fill, ← h.x0_eq]
    simp only [eq_zero_iff_toNat]

theorem fillCycle_breathing : FillCycle breathing (fun n => 2 * n % 256) (fun n => 16 * (n / 128) % 256)
    fun n => hsv2rgb (BitVec.ofNat 8 (16 * (n / 128))) 255 (triWave (2 * n)) where
  start := ⟨rfl, rfl⟩
  advance n c h := by
    have hphase : (addMod c.x.x0 2 256).toNat = 2 * (n + 1) % 256 := by
      rw [addMod_toNat _ _ (by decide), h.x0_eq]
      omega
    refine ⟨hphase, (stepHue_toNat (hphase ▸ eq_zero_iff_toNat _) c.x.x1 16).trans ?_⟩
    rw [h.x1_eq]
    split <;> omega
  paint n c h := by
    have hv : triWave (oscArg 0 0 c.x.x0) = triWave (2 * n) :=
      triWave_congr (by rw [oscArg_mod_256, h.x0_eq]; simp)
    unfold breathing
    rw [withX_fb, hv, h.x1_eq, byteField_of_mod (Nat.mod_mod _ 256)]

theorem fillCycle_flashWhite : FillCycle flashWhite (fun n => n % 4) (fun _ => 0)
    fun n => if n % 4 = 0 then Rgb.white else Rgb.black where
  start := ⟨rfl, rfl⟩
  advance n c h := ⟨(addMod_toNat _ _ (by decide)).trans (by rw [h.x0_eq]; omega), h.x1_eq⟩
  paint n c h := by
    unfold flashWhite
    rw [withX_fb, ite_fill, ← h.x0_eq]
    simp only [eq_zero_iff_toNat]

theorem fillCycle_thunderPulse : FillCycle thunderPulse (fun n => n % 60) (fun _ => 0)
    fun n => if n % 60 < 5 then Rgb.white else Rgb.black where
  start := ⟨rfl, rfl⟩
  advance n c h := ⟨(addMod_toNat _ _ (by decide)).trans (by rw [h.x0_eq]; omega), h.x1_eq⟩
  paint n c h := by
    unfold thunderPulse
    rw [withX_fb, ite_fill, h.x0_eq]

theorem fillCycle_bassDrop : FillCycle bassDrop (fun n => n % 16) (fun n => 8 * (n / 16) % 256)
    fun n => hsv2rgb (BitVec.ofNat 8 (8 * (n / 16))) 255 (BitVec.ofNat 8 (255 - 16 * (n % 16))) where
  start := ⟨rfl, rfl⟩
  advance n c h := by
    have hlevel : (addMod c.x.x0 1 16).toNat = (n + 1) % 16 := by
      rw [addMod_toNat _ _ (by decide), h.x0_eq]
      omega
    refine ⟨hlevel, (stepHue_toNat (hlevel ▸ eq_zero_iff_toNat _) c.x.x1 8).trans ?_⟩
    rw [h.x1_eq]
    split <;> omega
  paint n c h := by
    unfold bassDrop
    rw [withX_fb, h.x0_eq, h.x1_eq, byteField_of_mod (Nat.mod_mod _ 256)]
    rfl

theorem fillCycle_raveStrobe : FillCycle raveStrobe (fun n => n % 2) (fun n => 37 * ((n + 1) / 2) % 256)
    fun n => if n % 2 = 0 then hsv2rgb (BitVec.ofNat 8 (37 * (n / 2))) 255 255 else Rgb.black where
  start := ⟨rfl, rfl⟩
  advance n c h := by
    rw [raveStrobe_x]
    refine ⟨xor_one_toNat h.x0_eq, (stepHue_toNat (h.x0_eq ▸ eq_zero_iff_toNat _) c.x.x1 37).trans ?_⟩
    rw [h.x1_eq]
    split <;> omega
  paint n c h := by
    have hzero : c.x.x0 = 0 ↔ n % 2 = 0 := h.x0_eq ▸ eq_zero_iff_toNat c.x.x0
    unfold raveStrobe
    by_cases hlit : n % 2 = 0
    · rw [if_pos (hzero.2 hlit), if_pos hlit, withX_fb, h.x1_eq, hsvFull_mod, show (n + 1) / 2 = n / 2 by omega]
    · rw [if_neg (mt hzero.1 hlit), if_neg hlit, withX_fb]

theorem fillCycle_throttlePulse : FillCycle throttlePulse (fun n => n % 8) (fun _ => 0)
    fun n => ⟨triWave (32 * (n % 8)), 0, 0⟩ where
  start := ⟨rfl, rfl⟩
  advance n c h := ⟨(addMod_toNat _ _ (by decide)).trans (by rw [h.x0_eq]; omega), h.x1_eq⟩
  paint n c h := by
    have hv : triWave (oscArg (byteField c.x.x0.toNat) 32 0) = triWave (32 * (n % 8)) := by
      refine triWave_congr ?_
      rw [oscArg_mod_256, byteField_toNat, h.x0_eq]
      show (n % 8 % 256 * 32 + 0) % 256 = _
      omega
    unfold throttlePulse
    rw [withX_fb, hv]

/-- The eight levels of full-throttle pulse (46_modes_14_26.md R266). -/
theorem throttle_levels : ∀ k : Fin 8,
    ([0, 64, 129, 193, 255, 191, 126, 62] : List Byte)[k.val]? = some (triWave (32 * k.val)) := by decide

/-- Settles O47: each mode by its cycle. -/
theorem fillModesFollowCycle : Obligations.FillModesFollowCycle := by
  intro s n a hu ht hl hw ha shown
  refine ⟨fun hm => ?_, fun hm => ?_, fun hm => ?_, fun hm => ?_, fun hm => ?_, fun hm => ?_, fun hm => ?_,
    fun hm v hv => ?_⟩
  · exact fillCycle_solidColour.read_frames hu ht hl hw (m := 1) (by decide) hm (fun _ => rfl) n ha
  · exact fillCycle_toggledFlash.read_frames hu ht hl hw (m := 2) (by decide) hm (fun _ => rfl) n ha
  · exact fillCycle_breathing.read_frames hu ht hl hw (m := 20) (by decide) hm (fun _ => rfl) n ha
  · exact fillCycle_flashWhite.read_frames hu ht hl hw (m := 22) (by decide) hm (fun _ => rfl) n ha
  · exact fillCycle_thunderPulse.read_frames hu ht hl hw (m := 23) (by decide) hm (fun _ => rfl) n ha
  · exact fillCycle_bassDrop.read_frames hu ht hl hw (m := 24) (by decide) hm (fun _ => rfl) n ha
  · exact fillCycle_raveStrobe.read_frames hu ht hl hw (m := 25) (by decide) hm (fun _ => rfl) n ha
  · have hlevel : triWave (32 * (n % 8)) = v :=
      Option.some.inj ((throttle_levels ⟨n % 8, Nat.mod_lt n (by decide)⟩).symm.trans hv)
    rw [← hlevel]
    exact fillCycle_throttlePulse.read_frames hu ht hl hw (m := 26) (by decide) hm (fun _ => rfl) n ha

end Sys2Proof.Machine
end

section
/-! The trail modes 8 to 14: what was there fades, then points are plotted or added on both rings
(spec/45_modes_0_13.md R248 to R253; spec/46_modes_14_26.md R254; spec/44_mode_sequencer.md R226). -/

namespace Sys2Proof.Machine

/-! ### The points of a trail -/

/-- The position the sine gives for an oscillator's argument (42_oscillators.md R154; 41_color_utilities.md R138). -/
theorem scale48_sinWave (s : State) {arg phase : Nat} (h : arg % 256 = phase % 256) :
    scale48 (sinWave s.cfg.sinLut arg) = s.sinePoint phase := by
  have hcell : Fin.ofNat 256 arg = Fin.ofNat 256 phase := Fin.ext h
  exact congrArg (fun i : Fin 256 => (s.cfg.sinLut[i]).toNat * 48 / 256) hcell

theorem sinePoint_lt (s : State) (phase : Nat) : s.sinePoint phase < 48 := by
  unfold State.sinePoint
  omega

/-- A loop that adds at a point of its own each round blends its colours in, one after another. -/
theorem read_loop_add2 (point : Nat → Nat) (colour : Nat → Rgb) (hpoint : ∀ j, point j < 48) {c : Canvas}
    (hw : c.fb.wf = true) (n : Nat) {p a : Nat} (ha : AtPos p a) :
    (loop n (fun j c' => c'.add2 (point j) (colour j)) c).fb.read a =
      (List.range n).foldl (fun v j => if p = point j then addRgb (colour j) v else v) (c.fb.read a) := by
  have hwf (k : Nat) : (loop k (fun j c' => c'.add2 (point j) (colour j)) c).fb.wf = true :=
    ((Kept.refl c).loop fun j e _ => (Kept.refl e).add2 (point j) (colour j)).1 hw
  induction n with
  | zero => rfl
  | succ n ih =>
    rw [loop_succ, read_add2_at ha (hpoint n) _ (hwf n), ih, List.range_succ, List.foldl_append]
    rfl

/-- A loop that plots one colour at a point of its own each round. -/
theorem read_loop_plot2_points (point : Nat → Nat) (colour : Rgb) (hpoint : ∀ j, point j < 48) {c : Canvas}
    (hw : c.fb.wf = true) (n : Nat) {p a : Nat} (ha : AtPos p a) :
    (loop n (fun j c' => c'.plot2 (point j) colour) c).fb.read a =
      if ∃ j < n, p = point j then colour else c.fb.read a := by
  have hwf (k : Nat) : (loop k (fun j c' => c'.plot2 (point j) colour) c).fb.wf = true :=
    ((Kept.refl c).loop fun j e _ => (Kept.refl e).plot2 (point j) colour).1 hw
  induction n with
  | zero => exact (if_neg fun ⟨j, hj, _⟩ => Nat.not_lt_zero j hj).symm
  | succ n ih =>
    rw [loop_succ, read_plot2_at ha (hpoint n) _ (hwf n), ih, ← ite_or]
    refine if_congr ?_ rfl rfl
    rw [Nat.exists_lt_succ_right, or_comm]

/-! ### The picture of each mode over the faded one -/

theorem read_sinelon (s : State) {c : Canvas} (hw : c.fb.wf = true) {p a : Nat} (ha : AtPos p a) :
    (sinelon s.cfg c).fb.read a = if p = s.sinePoint c.x.x0.toNat
      then addRgb (hsvFull c.x.x1.toNat) (fadeRgb 20 (c.fb.read a)) else fadeRgb 20 (c.fb.read a) := by
  have hpoint : scale48 (sinWave s.cfg.sinLut (oscArg 0 0 c.x.x0)) = s.sinePoint c.x.x0.toNat :=
    scale48_sinWave s (by rw [oscArg_mod_256]; simp)
  unfold sinelon
  rw [withX_fb, hpoint, read_add2_at ha (sinePoint_lt s _) _ (wf_fadeAll 20 c hw), read_fadeAll_all 20 c hw]

/-- The four points of juggle run at the speeds 1 to 4, a quarter turn apart (45_modes_0_13.md R249). -/
theorem juggle_point (s : State) (x0 j : Nat) :
    scale48 (sinWave s.cfg.sinLut (oscArg (byteField x0) (byteField (j + 1)) (BitVec.ofNat 16 (64 * j)))) =
      s.sinePoint (x0 * (j + 1) + 64 * j) := by
  refine scale48_sinWave s ?_
  rw [oscArg_mod_256, byteField_toNat, byteField_toNat, BitVec.toNat_ofNat]
  have hspeed : x0 % 256 * ((j + 1) % 256) ≡ x0 * (j + 1) [MOD 256] := (Nat.mod_modEq _ _).mul (Nat.mod_modEq _ _)
  have hphase : 64 * j % 2 ^ 16 ≡ 64 * j [MOD 256] := Nat.mod_mod_of_dvd _ (by decide)
  exact hspeed.add hphase

theorem read_juggle (s : State) {c : Canvas} (hw : c.fb.wf = true) {p a : Nat} (ha : AtPos p a) :
    (juggle s.cfg c).fb.read a = (List.range 4).foldl
      (fun v j => if p = s.sinePoint (c.x.x0.toNat * (j + 1) + 64 * j)
        then addRgb (hsv2rgb (BitVec.ofNat 8 (32 * j)) 200 255) v else v) (fadeRgb 30 (c.fb.read a)) := by
  unfold juggle
  simp only [withX_fb, juggle_point s]
  rw [read_loop_add2 (fun j => s.sinePoint (c.x.x0.toNat * (j + 1) + 64 * j)) _ (fun j => sinePoint_lt s _)
    (wf_fadeAll 30 c hw) 4 ha, read_fadeAll_all 30 c hw]
  rfl

theorem read_comets {c : Canvas} (hw : c.fb.wf = true) (hx : c.x.x0.toNat ≤ 47) {p a : Nat} (ha : AtPos p a) :
    (comets c).fb.read a = if p = c.x.x0.toNat then hsvFull c.x.x1.toNat
      else if p = (c.x.x0.toNat + 24) % 48 then hsvFull ((c.x.x1.toNat + 128) % 256) else fadeRgb 40 (c.fb.read a) := by
  have hfade := wf_fadeAll 40 c hw
  unfold comets
  rw [withX_fb, read_plot2_at ha (Nat.mod_lt _ (by decide)) _ (wf_plot2 _ _ _ hfade),
    read_plot2_at ha (by omega) _ hfade, read_fadeAll_all 40 c hw]
  exact ite_ite_comm _ _ _ _ fun h => by omega

/-- Every sixth position from the register on is lit, all round the ring (45_modes_0_13.md R251). -/
theorem exists_sixth_iff {x p : Nat} (hx : x ≤ 47) (hp : p ≤ 47) : (∃ j < 8, p = (x + 6 * j) % 48) ↔ p % 6 = x % 6 := by
  constructor
  · rintro ⟨j, -, rfl⟩
    omega
  · intro h
    exact ⟨(p + 48 - x) / 6 % 8, by omega, by omega⟩

theorem read_runningLight {c : Canvas} (hw : c.fb.wf = true) (hx : c.x.x0.toNat ≤ 47) {p a : Nat} (ha : AtPos p a) :
    (runningLight c).fb.read a = if p % 6 = c.x.x0.toNat % 6 then Rgb.white else fadeRgb 50 (c.fb.read a) := by
  unfold runningLight
  rw [withX_fb, read_loop_plot2_points (fun j => (c.x.x0.toNat + 6 * j) % 48) _ (fun j => Nat.mod_lt _ (by decide))
    (wf_fadeAll 50 c hw) 8 ha, read_fadeAll_all 50 c hw]
  exact if_congr (exists_sixth_iff hx ha.1) rfl rfl

theorem read_bounce_at {c : Canvas} (hw : c.fb.wf = true) (hx : c.x.x0.toNat ≤ 47) {p a : Nat} (ha : AtPos p a) :
    (bounce c).fb.read a = if p = c.x.x0.toNat then hsvFull c.x.x2.toNat else fadeRgb 60 (c.fb.read a) := by
  unfold bounce
  rw [withX_fb, read_plot2_at ha (by omega) _ (wf_fadeAll 60 c hw), read_fadeAll_all 60 c hw]

theorem read_dualBounce_at {c : Canvas} (hw : c.fb.wf = true) (hx : c.x.x0.toNat ≤ 47) {p a : Nat} (ha : AtPos p a) :
    (dualBounce c).fb.read a = if p = c.x.x0.toNat then Rgb.red else if p = 47 - c.x.x0.toNat then Rgb.blue
      else fadeRgb 40 (c.fb.read a) := by
  have hfade := wf_fadeAll 40 c hw
  unfold dualBounce
  rw [withX_fb, read_plot2_at ha (by omega) _ (wf_plot2 _ _ _ hfade), read_plot2_at ha (by omega) _ hfade,
    read_fadeAll_all 40 c hw]
  exact ite_ite_comm _ _ _ _ fun h => by omega

theorem read_ripple {c : Canvas} (hw : c.fb.wf = true) (hx : c.x.x0.toNat ≤ 24) {p a : Nat} (ha : AtPos p a) :
    (ripple c).fb.read a = if p = c.x.x0.toNat ∨ p = (48 - c.x.x0.toNat) % 48
      then hsv2rgb (byteField c.x.x1.toNat) 255 (byteField (255 - 10 * c.x.x0.toNat))
      else fadeRgb 80 (c.fb.read a) := by
  have hfade := wf_fadeAll 80 c hw
  unfold ripple
  rw [withX_fb, read_plot2_at ha (Nat.mod_lt _ (by decide)) _ (wf_plot2 _ _ _ hfade),
    read_plot2_at ha (Nat.mod_lt _ (by decide)) _ hfade, read_fadeAll_all 80 c hw, ← ite_or]
  exact if_congr (by omega) rfl rfl

/-! ### A frame of a trail mode -/

/-- The registers a mode does not use stay 0 when it writes the others (10_state.md R31). -/
theorem write_x0_of_inRange {m : Nat} {x : MsBank} (h : x.inRange m = true) (hm : (msBounds m).2 = (0, 0, 0))
    (v0 : BitVec 16) : { x with x0 := v0 } = (⟨v0, 0, 0, 0⟩ : MsBank) := by
  obtain ⟨-, h1, h2, h3⟩ := le_of_inRange h
  rw [hm] at h1 h2 h3
  rw [MsBank.mk.injEq]
  exact ⟨rfl, by bv_omega, by bv_omega, by bv_omega⟩

theorem write_x0_x1_of_inRange {m : Nat} {x : MsBank} (h : x.inRange m = true) (hm : (msBounds m).2.2 = (0, 0))
    (v0 v1 : BitVec 16) : { x with x0 := v0, x1 := v1 } = (⟨v0, v1, 0, 0⟩ : MsBank) := by
  obtain ⟨-, -, h2, h3⟩ := le_of_inRange h
  rw [hm] at h2 h3
  rw [MsBank.mk.injEq]
  exact ⟨rfl, rfl, by bv_omega, by bv_omega⟩

/-- Ripple's radius counts to 24, then starts again in the next hue (46_modes_14_26.md R254). -/
theorem ripple_bank {c : Canvas} (h : c.x.inRange 14 = true) : (ripple c).x =
    if c.x.x0.toNat = 24 then ⟨0, addMod c.x.x1 32 256, 0, 0⟩
    else ⟨BitVec.ofNat 16 (c.x.x0.toNat + 1), c.x.x1, 0, 0⟩ := by
  have hx : c.x.x0.toNat ≤ 24 := (le_of_inRange h).1
  have hnext : c.x.x0 + 1 = BitVec.ofNat 16 (c.x.x0.toNat + 1) := by bv_omega
  rw [ripple_x, write_x0_x1_of_inRange h rfl, ← hnext]
  refine ite_congr (by rw [eq_iff_iff]; bv_omega) (fun _ => rfl) fun _ => ?_
  exact write_x0_x1_of_inRange h rfl (c.x.x0 + 1) c.x.x1

/-- What a frame of mode `m` does to the registers and the picture when `f` renders it. -/
structure TrailFrame (s : State) (m : Nat) (f : Canvas → Canvas) : Prop where
  wf : s.startCanvas.fb.wf = true
  found : s.startCanvas.x = s.startBank
  range : s.startBank.inRange m = true
  bank : s.frameDone.x = (f s.startCanvas).x
  /-- It shows a trail when the render paints over the faded picture it finds. -/
  trails : ∀ {k : Byte} {paint : Nat → Rgb → Rgb},
    (∀ p a, AtPos p a → (f s.startCanvas).fb.read a = paint p (fadeRgb k (s.startCanvas.fb.read a))) →
    s.trailsTo s.frameDone k paint

theorem trailFrame_of_standard {s : State} (ht : s.cfg.modeTable = modeTable) (hw : s.fb.wf = true)
    (hr : s.startBank.inRange s.mode.toNat = true) {m : Fin numMode} (h17 : m.val ≠ 17)
    (h : s.mode = BitVec.ofNat 5 m.val) {f : Canvas → Canvas} (hf : ∀ c, standardRender s.cfg m c = f c) :
    TrailFrame s m.val f := by
  obtain ⟨hlt, h17', hrender⟩ := renderMode_of_standard ht h17 h hf
  have hframe : s.frameCanvas = f s.startCanvas := hrender s.startCanvas
  refine ⟨wf_startCanvas hw, startCanvas_x ht hlt h17', mode_toNat h ▸ hr, congrArg Canvas.x hframe, fun hpaint => ?_⟩
  have hread {p a : Nat} (ha : AtPos p a) : s.frameDone.fb.read a = _ :=
    (congrArg (fun d : Canvas => d.fb.read a) hframe).trans
      ((hpaint p a ha).trans (by rw [read_startCanvas ht hlt h17' hw ha.lt_numPix]))
  exact fun p hp => ⟨hread (.ringA hp), hread (.ringB hp)⟩

theorem TrailFrame.x0_le {s : State} {m : Nat} {f : Canvas → Canvas} (h : TrailFrame s m f) :
    s.startCanvas.x.x0.toNat ≤ (msBounds m).1 := h.found ▸ (le_of_inRange h.range).1

/-- Settles O48, mode by mode: the registers by what the render writes, the trail by what it paints. -/
theorem trailModesPlotTheirPoints : Obligations.TrailModesPlotTheirPoints := by
  intro s hs ht hw hr x0 x1 x2 hsv
  refine ⟨s.frameDone, hs.exec_frame, fun hm => ?_, fun hm => ?_, fun hm => ?_, fun hm => ?_, fun hm => ?_,
    fun hm => ?_, fun hm => ?_⟩
  · have h := trailFrame_of_standard ht hw hr (m := 8) (by decide) hm (f := sinelon s.cfg) fun _ => rfl
    refine ⟨?_, h.trails fun p a ha => ?_⟩
    · rw [h.bank, sinelon_x, h.found]
      exact write_x0_x1_of_inRange h.range rfl _ _
    · rw [read_sinelon s h.wf ha, h.found]
      rfl
  · have h := trailFrame_of_standard ht hw hr (m := 9) (by decide) hm (f := juggle s.cfg) fun _ => rfl
    refine ⟨?_, h.trails fun p a ha => ?_⟩
    · rw [h.bank, juggle_x, h.found]
      exact write_x0_of_inRange h.range rfl _
    · rw [read_juggle s h.wf ha, h.found]
  · have h := trailFrame_of_standard ht hw hr (m := 10) (by decide) hm (f := comets) fun _ => rfl
    refine ⟨?_, h.trails fun p a ha => ?_⟩
    · rw [h.bank, comets_x, h.found]
      exact write_x0_x1_of_inRange h.range rfl _ _
    · rw [read_comets h.wf h.x0_le ha, h.found, hsvFull_mod]
      rfl
  · have h := trailFrame_of_standard ht hw hr (m := 11) (by decide) hm (f := runningLight) fun _ => rfl
    refine ⟨?_, h.trails fun p a ha => ?_⟩
    · rw [h.bank, runningLight_x, h.found]
      exact write_x0_of_inRange h.range rfl _
    · rw [read_runningLight h.wf h.x0_le ha, h.found]
  · have h := trailFrame_of_standard ht hw hr (m := 12) (by decide) hm (f := bounce) fun _ => rfl
    refine ⟨?_, h.trails fun p a ha => ?_⟩
    · rw [h.bank, bounce_x, h.found]
      exact addMod_toNat _ _ (by decide)
    · rw [read_bounce_at h.wf h.x0_le ha, h.found]
      rfl
  · have h := trailFrame_of_standard ht hw hr (m := 13) (by decide) hm (f := dualBounce) fun _ => rfl
    exact h.trails fun p a ha => by rw [read_dualBounce_at h.wf h.x0_le ha, h.found]
  · have h := trailFrame_of_standard ht hw hr (m := 14) (by decide) hm (f := ripple) fun _ => rfl
    refine ⟨?_, h.trails fun p a ha => ?_⟩
    · rw [h.bank, ripple_bank (h.found ▸ h.range), h.found]
      rfl
    · rw [read_ripple h.wf h.x0_le ha, h.found]
      rfl

end Sys2Proof.Machine
end

section
/-! The frame of a mode of the default table and the draws it takes, and one pixel at a logical position of one ring
(spec/44_mode_sequencer.md R210 to R213; spec/42_oscillators.md R160 to R162; spec/40_ring_geometry.md R111). -/

namespace Sys2Proof.Machine

/-! ### The draws of a frame -/

/-- The canvas `c` of a frame of `s` has taken `k` draws so far (42_oscillators.md R160). -/
structure Taken (s : State) (k : Nat) (c : Canvas) : Prop where
  draws : c.draws = s.draws.drop k
  drawPos : c.drawPos = s.drawPos + k

namespace Taken
variable {s : State} {k : Nat} {c : Canvas} (h : Taken s k c)
include h

theorem congr {d : Canvas} (hd : d.draws = c.draws) (hp : d.drawPos = c.drawPos) : Taken s k d :=
  ⟨hd.trans h.draws, hp.trans h.drawPos⟩

theorem draw16 : c.draw16.1 = s.drawAhead k ∧ Taken s (k + 1) c.draw16.2 := by
  refine ⟨?_, ?_, ?_⟩
  · rw [Canvas.draw16, h.draws, h.drawPos, State.drawAhead]
  · rw [draw16_draws, h.draws, List.tail_drop]
  · rw [draw16_drawPos, h.drawPos, Nat.add_assoc]

theorem rand8 : c.rand8.1 = BitVec.ofNat 8 ((s.drawAhead k).toNat / 256) ∧ Taken s (k + 1) c.rand8.2 :=
  ⟨by rw [Canvas.rand8, h.draw16.1], h.draw16.2⟩

theorem randN (n : Byte) :
    (c.randN n).1.toNat = (s.drawAhead k).toNat * n.toNat / 65536 ∧ Taken s (k + 1) (c.randN n).2 :=
  ⟨by rw [randN_toNat, h.draw16.1], h.draw16.2⟩

theorem fill (rgb : Rgb) : Taken s k (c.fill rgb) := h.congr (fill_draws rgb c) (fill_drawPos rgb c)

theorem fadeAll (a : Byte) : Taken s k (c.fadeAll a) := h.congr (fadeAll_draws a c) (fadeAll_drawPos a c)

theorem setPix (idx : BitVec 7) (rgb : Rgb) : Taken s k (c.setPix idx rgb) :=
  h.congr (setPix_draws idx rgb c) (setPix_drawPos idx rgb c)

theorem withX (x : MsBank) : Taken s k (c.withX x) := h.congr rfl rfl

theorem loop {n : Nat} {body : Nat → Canvas → Canvas} (hbody : ∀ p e, Taken s k e → Taken s k (body p e)) :
    Taken s k (loop n body c) :=
  loop_keeps (P := Taken s k) h hbody

/-- The draws the canvas of a frame has taken are those the frame has taken. -/
theorem frameDone (hc : s.frameDone.canvas = c) :
    s.frameDone.drawPos = s.drawPos + k ∧ s.frameDone.draws = s.draws.drop k := by
  rw [← hc] at h
  exact ⟨h.drawPos, h.draws⟩

end Taken

/-! ### The frame of a mode -/

/-- The pixel a render finds at any index: what is no pixel reads black. -/
theorem read_startCanvas_all {s : State} (ht : s.cfg.modeTable = modeTable) (hm : s.mode.toNat < numMode)
    (h17 : s.mode.toNat ≠ 17) (hw : s.fb.wf = true) (a : Nat) : s.startCanvas.fb.read a = s.startPixel a := by
  by_cases ha : a < numPix
  · exact read_startCanvas ht hm h17 hw ha
  · rw [read_outside _ (wf_startCanvas hw) (Nat.not_lt.1 ha), State.startPixel,
      read_outside _ hw (Nat.not_lt.1 ha), ite_self]

/-- RESET takes no draw but for the mode part of shockwave (44_mode_sequencer.md R213). -/
theorem taken_startCanvas {s : State} (ht : s.cfg.modeTable = modeTable) (hm : s.mode.toNat < numMode)
    (h17 : s.mode.toNat ≠ 17) : Taken s 0 s.startCanvas := by
  have hs : Taken s 0 s.canvas := ⟨rfl, rfl⟩
  by_cases hl : s.mode = s.lastMode
  · rw [startCanvas_same hl]
    exact hs
  · rw [startCanvas_entered ht hm h17 hl]
    exact (hs.fill _).withX _

/-- What a frame of a mode other than shockwave finds, and that the mode's render `f` makes the rest of it. -/
structure StandardFrame (s : State) (f : Canvas → Canvas) : Prop where
  canvas : s.frameDone.canvas = f s.startCanvas
  found : s.startCanvas.x = s.startBank
  source : Taken s 0 s.startCanvas
  wf : s.startCanvas.fb.wf = true
  pixels : ∀ a, s.startCanvas.fb.read a = s.startPixel a

theorem standardFrame {s : State} (ht : s.cfg.modeTable = modeTable) (hw : s.fb.wf = true) {m : Fin numMode}
    (h17 : m.val ≠ 17) (h : s.mode = BitVec.ofNat 5 m.val) {f : Canvas → Canvas}
    (hf : ∀ c, standardRender s.cfg m c = f c) : StandardFrame s f := by
  obtain ⟨hlt, h17', hrender⟩ := renderMode_of_standard ht h17 h hf
  exact ⟨hrender s.startCanvas, startCanvas_x ht hlt h17', taken_startCanvas ht hlt h17', wf_startCanvas hw,
    read_startCanvas_all ht hlt h17' hw⟩

namespace StandardFrame
variable {s : State} {f : Canvas → Canvas} (h : StandardFrame s f)
include h

theorem bank : s.frameDone.x = (f s.startCanvas).x := congrArg Canvas.x h.canvas

theorem read (a : Nat) : s.frameDone.fb.read a = (f s.startCanvas).fb.read a :=
  congrArg (fun c : Canvas => c.fb.read a) h.canvas

end StandardFrame

/-! ### One pixel of one ring -/

/-- The index of logical position `p` of a ring (40_ring_geometry.md R111). -/
def ringIndex : Ring → Nat → Nat
  | .A, p => p
  | .B, p => 95 - p

theorem mapPix_posField (ring : Ring) {p : Nat} (hp : p < 48) :
    (mapPix ring (posField p)).toNat = ringIndex ring p := by
  cases ring with
  | A => rw [mapPix_A, posField_toNat (by omega), Nat.mod_eq_of_lt hp, ringIndex]
  | B =>
    rw [mapPix_B, posField_toNat (by omega), ringIndex]
    omega

theorem ringIndex_lt (ring : Ring) {p : Nat} (hp : p < 48) : ringIndex ring p < numPix :=
  mapPix_posField ring hp ▸ mapPix_lt ring (posField p)

/-- No two positions share an index. -/
theorem ringIndex_eq_iff {r r' : Ring} {p q : Nat} (hp : p < 48) (hq : q < 48) :
    ringIndex r p = ringIndex r' q ↔ r = r' ∧ p = q := by
  cases r <;> cases r' <;> simp only [ringIndex, reduceCtorEq, false_and, true_and, iff_false] <;> omega

/-- SETPIX through the mapper writes one position of one ring. -/
theorem read_setPix_at {ring r : Ring} {p q : Nat} (hp : p < 48) (hq : q < 48) (rgb : Rgb) {c : Canvas}
    (hw : c.fb.wf = true) : (c.setPix (mapPix ring (posField q)) rgb).fb.read (ringIndex r p) =
      if r = ring ∧ p = q then rgb else c.fb.read (ringIndex r p) := by
  rw [read_setPix _ rgb c hw (mapPix_lt ring _), mapPix_posField ring hq]
  exact if_congr (ringIndex_eq_iff hp hq) rfl rfl

/-- Where each ring takes one draw, Ring A's comes first (46_modes_14_26.md R257, R258). -/
def ringDraw : Ring → Nat
  | .A => 0
  | .B => 1

end Sys2Proof.Machine
end

section
/-! Modes 15 and 16, sparkle and firefly: a draw decides whether a pixel lights up, and if so two more give its place
and its hue (spec/46_modes_14_26.md R255, R256). -/

namespace Sys2Proof.Machine

/-! ### A spark -/

/-- With probability `chance / 256` a pixel lights up: RANDN `n` and `place` give its index, RAND8 its hue. -/
def spark (chance : Nat) (n : Byte) (place : Byte → BitVec 7) (c : Canvas) : Canvas :=
  let spot := c.rand8.2.randN n
  if c.rand8.1.toNat < chance then spot.2.rand8.2.setPix (place spot.1) (hsv2rgb spot.2.rand8.1 255 255)
  else c.rand8.2

theorem sparkle_eq_spark (c : Canvas) :
    sparkle c = spark 128 96 (fun i => i.setWidth 7) (c.fill Rgb.black) := rfl

theorem fireflyRing_eq_spark (ring : Ring) (c : Canvas) :
    fireflyRing ring c = spark 80 48 (fun i => mapPix ring (posField i.toNat)) c := rfl

section
variable {s : State} {k chance bound m : Nat} {n : Byte} {place : Byte → BitVec 7} {c : Canvas}
  (h : Taken s k c) (hb : chance * 256 = bound)
include h hb

theorem rand8_lt_iff : c.rand8.1.toNat < chance ↔ (s.drawAhead k).toNat < bound := by
  rw [rand8_toNat, h.draw16.1, Nat.div_lt_iff_lt_mul (by decide), hb]

/-- A spark takes three draws, its test one. -/
theorem taken_spark :
    Taken s (k + if (s.drawAhead k).toNat < bound then 3 else 1) (spark chance n place c) := by
  simp only [spark, rand8_lt_iff h hb]
  split
  · exact (((h.rand8.2).randN n).2.rand8.2).setPix _ _
  · exact h.rand8.2

/-- It lights the pixel its second draw names in the hue of its third. -/
theorem read_spark (hw : c.fb.wf = true) (hn : n ≠ 0) (hm : n.toNat = m) {index : Nat → Nat}
    (hplace : ∀ i : Byte, i.toNat < m → (place i).toNat = index i.toNat ∧ index i.toNat < numPix) (a : Nat) :
    (spark chance n place c).fb.read a =
      if (s.drawAhead k).toNat < bound ∧ a = index ((s.drawAhead (k + 1)).toNat * m / 65536)
      then hsv2rgb (BitVec.ofNat 8 ((s.drawAhead (k + 2)).toNat / 256)) 255 255 else c.fb.read a := by
  obtain ⟨hspot, htaken⟩ := h.rand8.2.randN n
  obtain ⟨hidx, hlt⟩ := hplace _ (hm ▸ randN_lt n c.rand8.2 hn)
  simp only [spark, rand8_lt_iff h hb]
  split
  · next hlit =>
    rw [read_setPix _ _ (c.rand8.2.randN n).2.rand8.2 hw (hidx ▸ hlt), hidx, hspot, hm, htaken.rand8.1]
    exact if_congr (and_iff_right hlit).symm rfl rfl
  · next hdark => exact (if_neg fun hlit => hdark hlit.1).symm

end

/-! ### Mode 15 -/

/-- A byte below 96 names a pixel by its physical index. -/
theorem setWidth_7_of_lt (i : Byte) (hi : i.toNat < 96) : (i.setWidth 7).toNat = i.toNat ∧ i.toNat < numPix := by
  simp only [BitVec.toNat_setWidth, numPix]
  omega

theorem taken_sparkle {s : State} {k : Nat} {c : Canvas} (h : Taken s k c) :
    Taken s (k + if (s.drawAhead k).toNat < 0x8000 then 3 else 1) (sparkle c) := by
  rw [sparkle_eq_spark]
  exact taken_spark (h.fill Rgb.black) rfl

/-- A sparkle stands alone in a black frame. -/
theorem read_sparkle {s : State} {k : Nat} {c : Canvas} (h : Taken s k c) (hw : c.fb.wf = true) (a : Nat) :
    (sparkle c).fb.read a =
      if (s.drawAhead k).toNat < 0x8000 ∧ a = (s.drawAhead (k + 1)).toNat * 96 / 65536
      then hsv2rgb (BitVec.ofNat 8 ((s.drawAhead (k + 2)).toNat / 256)) 255 255 else Rgb.black := by
  have hblack : (c.fill Rgb.black).fb.read a = Rgb.black := by
    rw [read_fill _ _ hw]
    split
    · rfl
    · exact read_outside _ hw (by omega)
  rw [sparkle_eq_spark, read_spark (m := 96) (h.fill Rgb.black) rfl (wf_fill _ _ hw) (by decide) rfl
    (index := fun i => i) setWidth_7_of_lt, hblack]

/-- Settles O49, by the first draw. -/
theorem sparkleTakesOneOrThreeDraws : Obligations.SparkleTakesOneOrThreeDraws := by
  intro s hs ht hw hm
  have hframe := standardFrame ht hw (m := 15) (by decide) hm (f := sparkle) fun _ => rfl
  obtain ⟨hpos, hdraws⟩ := (taken_sparkle hframe.source).frameDone hframe.canvas
  have hread (a : Nat) := (hframe.read a).trans (read_sparkle hframe.source hframe.wf a)
  refine ⟨s.frameDone, hs.exec_frame, fun hlit => ?_, fun hdark => ?_⟩
  · rw [if_pos hlit] at hpos hdraws
    exact ⟨hpos, hdraws, fun a => (hread a).trans (if_congr (and_iff_right hlit) rfl rfl)⟩
  · rw [if_neg (Nat.not_lt.2 hdark)] at hpos hdraws
    exact ⟨hpos, hdraws, fun a => (hread a).trans (if_neg fun h => Nat.not_lt.2 hdark h.1)⟩

/-! ### Mode 16 -/

theorem taken_fireflyRing {s : State} {k : Nat} {c : Canvas} (h : Taken s k c) (ring : Ring) :
    Taken s (k + if (s.drawAhead k).toNat < 0x5000 then 3 else 1) (fireflyRing ring c) := by
  rw [fireflyRing_eq_spark]
  exact taken_spark h rfl

theorem read_fireflyRing {s : State} {k : Nat} {c : Canvas} (h : Taken s k c) (hw : c.fb.wf = true) (ring : Ring)
    (a : Nat) : (fireflyRing ring c).fb.read a =
      if (s.drawAhead k).toNat < 0x5000 ∧ a = ringIndex ring ((s.drawAhead (k + 1)).toNat * 48 / 65536)
      then hsv2rgb (BitVec.ofNat 8 ((s.drawAhead (k + 2)).toNat / 256)) 255 255 else c.fb.read a := by
  rw [fireflyRing_eq_spark]
  exact read_spark (m := 48) h rfl hw (by decide) rfl
    (fun i hi => ⟨mapPix_posField ring hi, ringIndex_lt ring hi⟩) a

/-- Ring A's firefly and Ring B's are two pixels, so either may be drawn first. -/
theorem read_firefly {s : State} {c : Canvas} (h : Taken s 0 c) (hw : c.fb.wf = true) {k : Nat}
    (hk : k = if (s.drawAhead 0).toNat < 0x5000 then 3 else 1) (a : Nat) : (firefly c).fb.read a =
      if (s.drawAhead 0).toNat < 0x5000 ∧ a = (s.drawAhead 1).toNat * 48 / 65536
      then hsv2rgb (BitVec.ofNat 8 ((s.drawAhead 2).toNat / 256)) 255 255
      else if (s.drawAhead k).toNat < 0x5000 ∧ a = 95 - (s.drawAhead (k + 1)).toNat * 48 / 65536
      then hsv2rgb (BitVec.ofNat 8 ((s.drawAhead (k + 2)).toNat / 256)) 255 255
      else fadeRgb 10 (c.fb.read a) := by
  have hA := taken_fireflyRing (h.fadeAll 10) .A
  rw [← hk, Nat.zero_add] at hA
  have hwA : (fireflyRing .A (c.fadeAll 10)).fb.wf = true := (((Kept.refl c).fadeAll 10).fireflyRing .A).1 hw
  rw [firefly, read_fireflyRing hA hwA, read_fireflyRing (h.fadeAll 10) (wf_fadeAll 10 c hw), read_fadeAll_all 10 c hw]
  refine ite_ite_comm _ _ _ _ fun hlitB hlitA => ?_
  have hring : ringIndex .B ((s.drawAhead (k + 1)).toNat * 48 / 65536) =
    ringIndex .A ((s.drawAhead (0 + 1)).toNat * 48 / 65536) := hlitB.2.symm.trans hlitA.2
  exact absurd ((ringIndex_eq_iff (by omega) (by omega)).1 hring).1 (by decide)

theorem taken_firefly {s : State} {c : Canvas} (h : Taken s 0 c) {k : Nat}
    (hk : k = if (s.drawAhead 0).toNat < 0x5000 then 3 else 1) :
    Taken s (k + if (s.drawAhead k).toNat < 0x5000 then 3 else 1) (firefly c) := by
  have hA := taken_fireflyRing (h.fadeAll 10) .A
  rw [← hk, Nat.zero_add] at hA
  exact taken_fireflyRing hA .B

end Sys2Proof.Machine
end

section
/-! Mode 18, the bar graph: two draws, then a bar on each ring (spec/46_modes_14_26.md R258). -/

namespace Sys2Proof.Machine

/-- A bar of height `n` stands at both sides of position 0, up to the middle of its ring. -/
theorem read_barRing {ring r : Ring} {n p : Nat} (hn : n ≤ 24) (hp : p < 48) {c : Canvas} (hw : c.fb.wf = true) :
    (barRing ring n c).fb.read (ringIndex r p) =
      if r = ring ∧ min p (47 - p) < n then hsv2rgb (BitVec.ofNat 8 (96 - 4 * min p (47 - p))) 255 255
      else c.fb.read (ringIndex r p) := by
  have hwf (k : Nat) : (barRing ring k c).fb.wf = true := ((Kept.refl c).barRing ring k).1 hw
  induction n with
  | zero => exact (if_neg fun h => Nat.not_lt_zero _ h.2).symm
  | succ n ih =>
    have hhue : (((96 : Int) - 4 * n) % 256).toNat = 96 - 4 * n := by omega
    have hround : barRing ring (n + 1) c = ((barRing ring n c).setPix (mapPix ring (posField n))
        (hsvFull (((96 : Int) - 4 * n) % 256).toNat)).setPix (mapPix ring (posField (47 - n)))
        (hsvFull (((96 : Int) - 4 * n) % 256).toNat) := loop_succ n _ c
    rw [hround, hhue, read_setPix_at hp (by omega) _ (wf_setPix _ _ _ (hwf n)), read_setPix_at hp (by omega) _ (hwf n),
      ih (by omega), ← ite_or]
    by_cases hr : r = ring
    · simp only [hr, true_and]
      have hsides : p = 47 - n ∨ p = n ↔ min p (47 - p) = n := by omega
      rw [if_congr hsides rfl rfl, ite_lt_succ]
      exact ite_congr rfl (fun hend => by rw [hend]; rfl) fun _ => rfl
    · simp only [hr, false_and, or_false, if_false]

/-- The picture of the bar graph at a position of either ring, by the heights drawn. -/
theorem read_barGraph {s : State} {c : Canvas} (h : Taken s 0 c) (hw : c.fb.wf = true) {p : Nat} (hp : p < 48)
    (r : Ring) : (barGraph c).fb.read (ringIndex r p) =
      if min p (47 - p) < (s.drawAhead (ringDraw r)).toNat * 25 / 65536
      then hsv2rgb (BitVec.ofNat 8 (96 - 4 * min p (47 - p))) 255 255 else Rgb.black := by
  obtain ⟨hA, h1⟩ := (h.fill Rgb.black).randN 25
  obtain ⟨hB, -⟩ := h1.randN 25
  have hwf : (((c.fill Rgb.black).randN 25).2.randN 25).2.fb.wf = true := by
    rw [randN_fb, randN_fb]
    exact wf_fill Rgb.black c hw
  have hheight (k : Nat) : (s.drawAhead k).toNat * (25 : Byte).toNat / 65536 ≤ 24 := by
    have hlt := (s.drawAhead k).isLt
    rw [show (25 : Byte).toNat = 25 from rfl]
    omega
  have hbars : barGraph c = barRing .B (((c.fill Rgb.black).randN 25).2.randN 25).1.toNat
      (barRing .A ((c.fill Rgb.black).randN 25).1.toNat (((c.fill Rgb.black).randN 25).2.randN 25).2) := rfl
  rw [hbars, hA, hB, read_barRing (hheight 1) hp (((Kept.refl _).barRing .A _).1 hwf),
    read_barRing (hheight 0) hp hwf, randN_fb, randN_fb, read_fill _ c hw, if_pos (ringIndex_lt r hp)]
  cases r <;> simp only [ringDraw, reduceCtorEq, false_and, true_and, if_false] <;> rfl

theorem taken_barRing {s : State} {k : Nat} {c : Canvas} (h : Taken s k c) (ring : Ring) (n : Nat) :
    Taken s k (barRing ring n c) := h.loop fun _ _ he => (he.setPix _ _).setPix _ _

theorem taken_barGraph {s : State} {c : Canvas} (h : Taken s 0 c) : Taken s 2 (barGraph c) :=
  taken_barRing (taken_barRing (((h.fill Rgb.black).randN 25).2.randN 25).2 .A _) .B _

/-- Settles O50, each mode by the draws its render takes and the pixels it lights. -/
theorem fireflyAndBarGraphTakeTheirDraws : Obligations.FireflyAndBarGraphTakeTheirDraws := by
  intro s hs ht hw d hsv
  refine ⟨s.frameDone, hs.exec_frame, fun hm => ?_, fun hm => ?_⟩
  · have hframe := standardFrame ht hw (m := 16) (by decide) hm (f := firefly) fun _ => rfl
    obtain ⟨hpos, hdraws⟩ := (taken_firefly hframe.source rfl).frameDone hframe.canvas
    refine ⟨hpos, hdraws, hframe.bank.trans ((firefly_x _).trans hframe.found), fun a => ?_⟩
    rw [hframe.read, read_firefly hframe.source hframe.wf rfl, hframe.pixels]
  · have hframe := standardFrame ht hw (m := 18) (by decide) hm (f := barGraph) fun _ => rfl
    obtain ⟨hpos, hdraws⟩ := (taken_barGraph hframe.source).frameDone hframe.canvas
    refine ⟨hpos, hdraws, hframe.bank.trans ((barGraph_x _).trans hframe.found), fun p hp => ?_⟩
    have hread (r : Ring) := (hframe.read _).trans (read_barGraph hframe.source hframe.wf (Nat.lt_succ_of_le hp) r)
    exact ⟨hread .A, hread .B⟩

end Sys2Proof.Machine
end

section
/-! Mode 17, shockwave: two fronts leave the origin of each ring, and after the last radius two draws give new origins
(spec/46_modes_14_26.md R257; spec/44_mode_sequencer.md R213). -/

namespace Sys2Proof.Machine

/-! ### The origins -/

/-- The origin a draw gives (46_modes_14_26.md R257). -/
def State.drawnOrigin (s : State) (k : Nat) : Nat := (s.drawAhead k).toNat * 48 / 65536

theorem drawnOrigin_toNat (s : State) (k : Nat) : (BitVec.ofNat 16 (s.drawnOrigin k)).toNat = s.drawnOrigin k := by
  rw [BitVec.toNat_ofNat, State.drawnOrigin]
  omega

/-- Two draws give the origins, Ring A's first; radius and hue are left. -/
theorem drawOrigins_of_taken {s : State} {k : Nat} {c : Canvas} (h : Taken s k c) :
    Taken s (k + 2) (drawOrigins c) ∧ (drawOrigins c).x =
      { c.x with x0 := BitVec.ofNat 16 (s.drawnOrigin k), x1 := BitVec.ofNat 16 (s.drawnOrigin (k + 1)) } := by
  obtain ⟨hA, h1⟩ := h.randN 48
  obtain ⟨hB, h2⟩ := h1.randN 48
  refine ⟨h2.withX _, (MsBank.mk.injEq ..).mpr ⟨?_, ?_, rfl, rfl⟩⟩
  · exact (BitVec.ofNat_toNat 16 _).symm.trans (congrArg (BitVec.ofNat 16) hA)
  · exact (BitVec.ofNat_toNat 16 _).symm.trans (congrArg (BitVec.ofNat 16) hB)

theorem drawOrigins_fb (c : Canvas) : (drawOrigins c).fb = c.fb := rfl

/-- The origin of a ring's fronts, Ring A's in the first register. -/
def MsBank.origin (x : MsBank) : Ring → Nat
  | .A => x.x0.toNat
  | .B => x.x1.toNat

/-! ### The picture -/

/-- Position `p` is `rad` steps from the origin `o`, on either side of it. -/
abbrev OnFront (rad o p : Nat) : Prop := p = (o + rad) % 48 ∨ (p + rad) % 48 = o

theorem read_shockFronts {ring r : Ring} {o rad p : Nat} (ho : o ≤ 47) (hp : p < 48) (col : Rgb)
    {c : Canvas} (hw : c.fb.wf = true) : (shockFronts ring o rad col c).fb.read (ringIndex r p) =
      if r = ring ∧ OnFront rad o p then col else c.fb.read (ringIndex r p) := by
  have hback : p = (((o : Int) - rad) % 48).toNat ↔ (p + rad) % 48 = o := by omega
  rw [shockFronts, read_setPix_at hp (by omega) _ (wf_setPix _ _ _ hw), read_setPix_at hp (by omega) _ hw, ← ite_or]
  refine if_congr ?_ rfl rfl
  rw [hback, ← and_or_left, or_comm]

/-- What shockwave paints before its registers advance: the fronts of both rings over the faded buffer. -/
def shockPicture (c : Canvas) : Canvas :=
  shockFronts .B c.x.x1.toNat c.x.x2.toNat (hsvFull c.x.x3.toNat)
    (shockFronts .A c.x.x0.toNat c.x.x2.toNat (hsvFull c.x.x3.toNat) (c.fadeAll 60))

theorem shockwave_eq (c : Canvas) : shockwave c =
    if (c.x.x2 + 3).toNat > 12 then
      drawOrigins ((shockPicture c).withX { c.x with x2 := 0, x3 := addMod c.x.x3 32 256 })
    else (shockPicture c).withX { c.x with x2 := c.x.x2 + 3 } := rfl

theorem read_shockwave {c : Canvas} (hw : c.fb.wf = true) (hx : c.x.inRange 17 = true) {p : Nat} (hp : p < 48)
    (r : Ring) : (shockwave c).fb.read (ringIndex r p) =
      if OnFront c.x.x2.toNat (c.x.origin r) p then hsvFull c.x.x3.toNat
      else fadeRgb 60 (c.fb.read (ringIndex r p)) := by
  obtain ⟨hA, hB, -, -⟩ := le_of_inRange hx
  have hfade := wf_fadeAll 60 c hw
  have hfb : (shockwave c).fb = (shockPicture c).fb := by
    rw [shockwave_eq]
    split <;> rfl
  rw [hfb, shockPicture, read_shockFronts hB hp _ (((Kept.refl _).shockFronts .A _ _ _).1 hfade),
    read_shockFronts hA hp _ hfade, read_fadeAll_all 60 c hw]
  cases r with
  | A => exact (if_neg fun h => Ring.noConfusion h.1).trans (if_congr (and_iff_right rfl) rfl rfl)
  | B => exact if_congr (and_iff_right rfl) rfl (if_neg fun h => Ring.noConfusion h.1)

/-! ### The registers and the draws -/

theorem taken_shockPicture {s : State} {k : Nat} {c : Canvas} (h : Taken s k c) : Taken s k (shockPicture c) :=
  ((((h.fadeAll 60).setPix _ _).setPix _ _).setPix _ _).setPix _ _

/-- Up to radius 12 the radius grows by 3 and no draw is taken. -/
theorem shockwave_grows {s : State} {k : Nat} {c : Canvas} (h : Taken s k c) (hrad : c.x.x2.toNat + 3 ≤ 12) :
    Taken s k (shockwave c) ∧ (shockwave c).x = { c.x with x2 := c.x.x2 + 3 } := by
  rw [shockwave_eq, if_neg (by bv_omega)]
  exact ⟨(taken_shockPicture h).withX _, rfl⟩

/-- After radius 12 two draws give new origins, the radius is 0 again and the hue advances. -/
theorem shockwave_restarts {s : State} {k : Nat} {c : Canvas} (h : Taken s k c) (hle : c.x.x2.toNat ≤ 12)
    (hrad : 12 < c.x.x2.toNat + 3) : Taken s (k + 2) (shockwave c) ∧ (shockwave c).x =
      ⟨BitVec.ofNat 16 (s.drawnOrigin k), BitVec.ofNat 16 (s.drawnOrigin (k + 1)), 0, addMod c.x.x3 32 256⟩ := by
  rw [shockwave_eq, if_pos (by bv_omega)]
  exact drawOrigins_of_taken ((taken_shockPicture h).withX _)

/-! ### The obligation -/

/-- What a frame of shockwave finds: `k` draws taken by RESET, and the origin `o r` of each ring. -/
structure ShockStart (s : State) (k : Nat) (o : Ring → Nat) : Prop where
  canvas : s.frameDone.canvas = shockwave s.startCanvas
  source : Taken s k s.startCanvas
  origins : ∀ r, s.startCanvas.x.origin r = o r
  radius : s.startCanvas.x.x2 = s.startBank.x2
  hue : s.startCanvas.x.x3 = s.startBank.x3
  range : s.startCanvas.x.inRange 17 = true
  pixels : ∀ a < numPix, s.startCanvas.fb.read a = s.startPixel a

theorem frameCanvas_shockwave {s : State} (ht : s.cfg.modeTable = modeTable) (hm : s.mode = 17) :
    s.frameCanvas = shockwave s.startCanvas := by
  rw [State.frameCanvas, hm]
  exact renderMode_default ht (m := 17) (by decide) _

theorem shockStart_same {s : State} (ht : s.cfg.modeTable = modeTable) (hm : s.mode = 17) (hl : s.mode = s.lastMode)
    (hx : s.x.inRange 17 = true) : ShockStart s 0 s.x.origin := by
  have hbank : s.startBank = s.x := if_pos hl
  have hpix (a : Nat) : s.startPixel a = s.fb.read a := if_pos hl
  refine ⟨frameCanvas_shockwave ht hm, ?source, ?origins, ?radius, ?hue, ?range, ?pixels⟩ <;>
    rw [startCanvas_same hl]
  case source => exact ⟨rfl, rfl⟩
  case origins => exact fun _ => rfl
  case radius => rw [hbank, State.canvas_x]
  case hue => rw [hbank, State.canvas_x]
  case range => exact hx
  case pixels => exact fun a _ => (hpix a).symm

/-- On entry the mode part of RESET draws the origins over a black buffer and registers of 0. -/
theorem shockStart_entered {s : State} (ht : s.cfg.modeTable = modeTable) (hw : s.fb.wf = true) (hm : s.mode = 17)
    (hl : s.mode ≠ s.lastMode) : ShockStart s 2 fun r => s.drawnOrigin (ringDraw r) := by
  have hbank : s.startBank = ⟨0, 0, 0, 0⟩ := if_neg hl
  have hpix (a : Nat) : s.startPixel a = Rgb.black := if_neg hl
  have hblank : Taken s 0 ((s.canvas.fill Rgb.black).withX ⟨0, 0, 0, 0⟩) :=
    (Taken.fill ⟨rfl, rfl⟩ Rgb.black).withX _
  obtain ⟨hsource, hx⟩ := drawOrigins_of_taken hblank
  have hstart : s.startCanvas = drawOrigins ((s.canvas.fill Rgb.black).withX ⟨0, 0, 0, 0⟩) := by
    rw [startCanvas_changed hl, hm]
    exact resetMode_default ht (m := 17) (by decide) _
  refine ⟨frameCanvas_shockwave ht hm, ?source, ?origins, ?radius, ?hue, ?range, ?pixels⟩ <;> rw [hstart]
  case source => exact hsource
  case origins =>
    rw [hx]
    intro r
    cases r with
    | A => exact drawnOrigin_toNat s 0
    | B => exact drawnOrigin_toNat s 1
  case radius => rw [hx, hbank, withX_x]
  case hue => rw [hx, hbank, withX_x]
  case range => exact inRange_drawOrigins _ (Nat.zero_le _) (Nat.zero_le _)
  case pixels =>
    intro a ha
    rw [drawOrigins_fb, withX_fb, read_fill _ _ hw, if_pos ha, hpix]

namespace ShockStart
variable {s : State} {k : Nat} {o : Ring → Nat} (h : ShockStart s k o)
include h

/-- The picture of the frame at a position of either ring. -/
theorem read (hw : s.fb.wf = true) {p : Nat} (hp : p < 48) (r : Ring) : s.frameDone.fb.read (ringIndex r p) =
    if OnFront s.startBank.x2.toNat (o r) p then hsvFull s.startBank.x3.toNat
    else fadeRgb 60 (s.startPixel (ringIndex r p)) := by
  have hread := read_shockwave (wf_startCanvas hw) h.range hp r
  rw [h.radius, h.hue, h.origins, h.pixels _ (ringIndex_lt r hp)] at hread
  exact (congrArg (fun c : Canvas => c.fb.read (ringIndex r p)) h.canvas).trans hread

theorem radius_le : s.startCanvas.x.x2.toNat ≤ 12 := by
  obtain ⟨-, -, hle, -⟩ := le_of_inRange h.range
  exact hle

end ShockStart

/-- Settles O51: what the frame finds depends on whether the mode is entered, what it leaves on the radius. -/
theorem shockwaveExpandsAndDraws : Obligations.ShockwaveExpandsAndDraws := by
  intro s hs ht hw hm hx origin oA oB k rad hue lit
  obtain ⟨o, hA, hB, h⟩ : ∃ o : Ring → Nat, o .A = oA ∧ o .B = oB ∧ ShockStart s k o := by
    by_cases hl : s.lastMode = 17
    · simp only [k, oA, oB, if_pos hl]
      exact ⟨_, rfl, rfl, shockStart_same ht hm (hm.trans hl.symm) (hx hl)⟩
    · simp only [k, oA, oB, if_neg hl]
      exact ⟨_, rfl, rfl, shockStart_entered ht hw hm fun h => hl (h.symm.trans hm)⟩
  have hrad : s.startCanvas.x.x2.toNat = rad := congrArg BitVec.toNat h.radius
  have hhue : s.startCanvas.x.x3.toNat = hue := congrArg BitVec.toNat h.hue
  have hbank : s.frameDone.x = (shockwave s.startCanvas).x := congrArg Canvas.x h.canvas
  refine ⟨s.frameDone, hs.exec_frame, fun hgrow => ?_, fun hlast => ?_, fun p hp => ?_⟩
  · obtain ⟨htaken, hnext⟩ := shockwave_grows h.source (hrad ▸ hgrow)
    obtain ⟨hpos, hdraws⟩ := htaken.frameDone h.canvas
    refine ⟨hpos, hdraws, ?_⟩
    rw [hbank, hnext, ← hA, ← hB, ← h.origins, ← h.origins, ← hrad, ← hhue]
    simp only [MsBank.origin, BitVec.ofNat_add, BitVec.ofNat_toNat, BitVec.setWidth_eq]
    rfl
  · obtain ⟨htaken, hnext⟩ := shockwave_restarts h.source h.radius_le (hrad ▸ hlast)
    obtain ⟨hpos, hdraws⟩ := htaken.frameDone h.canvas
    refine ⟨hpos, hdraws, ?_⟩
    rw [hbank, hnext, addMod, hhue]
    rfl
  · have hread := h.read hw (Nat.lt_succ_of_le hp)
    rw [← hA, ← hB]
    exact ⟨fun hlit => (hread .A).trans (if_pos hlit), fun hlit => (hread .A).trans (if_neg hlit),
      fun hlit => (hread .B).trans (if_pos hlit), fun hlit => (hread .B).trans (if_neg hlit)⟩

end Sys2Proof.Machine
end

section
/-! Modes 19 and 21: each pixel samples the noise or the sine at its place and the time of the register
(spec/46_modes_14_26.md R259, R261; spec/42_oscillators.md R150, R154, R157). -/

namespace Sys2Proof.Machine

theorem oscArg_byteField {i : Nat} (hi : i < 256) (scale : Byte) (phase : BitVec 16) :
    oscArg (byteField i) scale phase = (i * scale.toNat + phase.toNat) % 65536 := by
  rw [oscArg, byteField_toNat, Nat.mod_eq_of_lt hi]

/-- A register of full width steps as a 16-bit word (10_state.md R31). -/
theorem addMod_full (v : BitVec 16) (step : Nat) : addMod v step 65536 = v + BitVec.ofNat 16 step := by
  apply BitVec.eq_of_toNat_eq
  rw [addMod_toNat v step (by decide), BitVec.toNat_add, BitVec.toNat_ofNat, Nat.add_mod_mod]

/-- A loop over physical indices that sets each in a colour of its own. -/
theorem read_loop_setPix_each (colour : Nat → Rgb) {c : Canvas} (hw : c.fb.wf = true) {n : Nat} (hn : n ≤ numPix)
    (a : Nat) : (loop n (fun i c' => c'.setPix (BitVec.ofNat 7 i) (colour i)) c).fb.read a =
      if a < n then colour a else c.fb.read a := by
  have hwf (k : Nat) : (loop k (fun i c' => c'.setPix (BitVec.ofNat 7 i) (colour i)) c).fb.wf = true :=
    loop_keeps (P := fun d => d.fb.wf = true) hw fun _ _ hd => wf_setPix _ _ _ hd
  induction n with
  | zero => rfl
  | succ n ih =>
    have hidx : (BitVec.ofNat 7 n).toNat = n := by
      rw [BitVec.toNat_ofNat, Nat.mod_eq_of_lt (Nat.lt_trans hn (by decide))]
    rw [loop_succ, read_setPix _ _ _ (hwf n) (hidx.symm ▸ hn), hidx, ih (Nat.le_of_succ_le hn), ite_lt_succ]
    exact ite_congr rfl (fun han => congrArg colour han.symm) fun _ => rfl

theorem read_swirl (cfg : Config.Params) {c : Canvas} (hw : c.fb.wf = true) {i : Nat} (hi : i < numPix) :
    (swirl cfg c).fb.read i =
      hsv2rgb (noiseWave cfg.hashLut ((40 * i + c.x.x0.toNat) % 65536)) 255 255 := by
  unfold swirl
  rw [withX_fb, read_loop_setPix_each _ hw (Nat.le_refl numPix), if_pos hi,
    oscArg_byteField (Nat.lt_trans hi (by decide)), Nat.mul_comm 40]
  rfl

/-- The sine table is read at the low byte of the argument (42_oscillators.md R154). -/
theorem sinWave_mod (lut : Vector Byte 256) (arg : Nat) : sinWave lut (arg % 65536) = sinWave lut arg :=
  congrArg (lookup lut) (byteField_of_mod (Nat.mod_mod_of_dvd arg (by decide)))

theorem read_sineWave (cfg : Config.Params) {c : Canvas} (hw : c.fb.wf = true) {p a : Nat} (ha : AtPos p a) :
    (sineWave cfg c).fb.read a = hsv2rgb 160 255 (sinWave cfg.sinLut (16 * p + c.x.x0.toNat)) := by
  have hp : p < 48 := Nat.lt_succ_of_le ha.1
  unfold sineWave
  rw [withX_fb, read_loop_plot2_each _ hw (Nat.le_refl 48) ha, if_pos hp,
    oscArg_byteField (Nat.lt_trans hp (by decide)), sinWave_mod, Nat.mul_comm 16]
  rfl

/-- Settles O53, each mode by the register its render steps and the pixels it reads off. -/
theorem swirlAndSineSamplePerPixel : Obligations.SwirlAndSineSamplePerPixel := by
  intro s hs ht hw phase
  refine ⟨s.frameDone, hs.exec_frame, fun hm => ?_, fun hm => ?_⟩
  · have hframe := standardFrame ht hw (m := 19) (by decide) hm (f := swirl s.cfg) fun _ => rfl
    refine ⟨?_, fun i hi => ?_⟩
    · rw [hframe.bank, swirl_x, hframe.found]
      exact addMod_full phase 30
    · rw [hframe.read, read_swirl s.cfg hframe.wf (Nat.lt_succ_of_le hi), hframe.found]
  · have hframe := standardFrame ht hw (m := 21) (by decide) hm (f := sineWave s.cfg) fun _ => rfl
    have hread {p a : Nat} (ha : AtPos p a) : s.frameDone.fb.read a =
        hsv2rgb 160 255 (s.cfg.sinLut[Fin.ofNat 256 (16 * p + phase.toNat)]) := by
      rw [hframe.read, read_sineWave s.cfg hframe.wf ha, hframe.found]
      rfl
    refine ⟨?_, fun p hp => ⟨hread (.ringA hp), (hread (.ringB hp)).trans (hread (.ringA hp)).symm⟩⟩
    rw [hframe.bank, sineWave_x, hframe.found]
    exact addMod_full phase 8

end Sys2Proof.Machine
end

section
/-! The configuration operations: which requests they write, step, clamp or drop, and that nothing else changes
(spec/47_mode_controller.md R301 to R308). -/

namespace Sys2Proof.Machine

/-! ### Who may issue them -/

theorem mayIssue_of_host {s : State} (h : s.issuer = .H) {op : Op} (hop : mayIssue .H op = true) :
    mayIssue s.issuer op = true := h ▸ hop

/-- The two steps are the operations of both ports (30_encoding.md R85). -/
theorem mayIssue_step_of_port {iss : Issuer} (h : iss ≠ .S) :
    mayIssue iss .adjmode = true ∧ mayIssue iss .adjbri = true := by
  cases iss with
  | H => decide
  | B => decide
  | S => exact absurd rfl h

/-! ### Requests for a value -/

/-- A value that fits the register is stored as it is. -/
theorem toNat_ofInt_of_lt {w : Nat} {i : Int} (h0 : 0 ≤ i) (h : i < 2 ^ w) :
    ((BitVec.ofInt w i).toNat : Int) = i := by
  rw [BitVec.toNat_ofInt, Int.toNat_of_nonneg (Int.emod_nonneg _ (by positivity))]
  exact Int.emod_eq_of_lt h0 (by exact_mod_cast h)

theorem modeInRange_iff (i : Int) : modeInRange i = true ↔ 0 ≤ i ∧ i ≤ 26 := by
  simp only [modeInRange, Bool.and_eq_true, decide_eq_true_eq]
  omega

theorem brightInRange_iff (b : Int) : brightInRange b = true ↔ 0 ≤ b ∧ b ≤ 255 := by
  simp only [brightInRange, Bool.and_eq_true, decide_eq_true_eq]

theorem requestMode_of_mem {i : Int} (h : 0 ≤ i ∧ i ≤ 26) (s : State) :
    s.requestMode i = { s with mode := BitVec.ofInt 5 i } := if_pos ((modeInRange_iff i).2 h)

theorem requestMode_of_not_mem {i : Int} (h : ¬(0 ≤ i ∧ i ≤ 26)) (s : State) :
    s.requestMode i = s.raise .range := if_neg fun hr => h ((modeInRange_iff i).1 hr)

theorem requestBright_of_mem {b : Int} (h : 0 ≤ b ∧ b ≤ 255) (s : State) :
    s.requestBright b = { s with bright := BitVec.ofInt 8 b } := if_pos ((brightInRange_iff b).2 h)

theorem requestBright_of_not_mem {b : Int} (h : ¬(0 ≤ b ∧ b ≤ 255)) (s : State) :
    s.requestBright b = s.raise .range := if_neg fun hr => h ((brightInRange_iff b).1 hr)

theorem exec_setmode {s : State} (h : s.issuer = .H) (imm : BitVec 16) :
    exec (.setmode imm) s = .next (s.requestMode imm.toInt) := issued_of_may (mayIssue_of_host h rfl) _

theorem exec_cfgupdM {s : State} (h : s.issuer = .H) (imm : BitVec 16) :
    exec (.cfgupdM imm) s = .next (s.requestMode imm.toInt) := issued_of_may (mayIssue_of_host h rfl) _

theorem exec_cfgupdB {s : State} (h : s.issuer = .H) (imm : BitVec 16) :
    exec (.cfgupdB imm) s = .next (s.requestBright imm.toInt) := issued_of_may (mayIssue_of_host h rfl) _

theorem exec_cfgupdMB {s : State} (h : s.issuer = .H) (mode bri : BitVec 16) :
    exec (.cfgupdMB mode bri) s = .next ((s.requestMode mode.toInt).requestBright bri.toInt) :=
  issued_of_may (mayIssue_of_host h rfl) _

/-- Settles O13: both operations are the one mode request, taken in its two cases. -/
theorem modeRequestWrittenOrDropped : Obligations.ModeRequestWrittenOrDropped := by
  intro s imm hH
  rw [exec_setmode hH, exec_cfgupdM hH]
  refine ⟨fun m hm hle => ?_, fun hout => ?_⟩
  · have hwritten : s.requestMode imm.toInt = { s with mode := m } := by
      rw [requestMode_of_mem (by omega), ← hm, BitVec.ofInt_natCast, BitVec.ofNat_toNat, BitVec.setWidth_eq]
    rw [hwritten]
    exact ⟨rfl, rfl⟩
  · rw [requestMode_of_not_mem (by omega)]
    exact ⟨rfl, rfl⟩

/-- Raising RANGE again changes nothing: the bit is sticky (10_state.md R36). -/
theorem setEvent_setEvent (d : BitVec 5) (e : Event) : setEvent (setEvent d e) e = setEvent d e := by
  rw [setEvent, setEvent, BitVec.or_assoc, BitVec.or_self]

/-- A mode request as one update of MODE and DIAG. -/
theorem requestMode_eq (i : Int) (s : State) : s.requestMode i = { s with
    mode := if 0 ≤ i ∧ i ≤ 26 then BitVec.ofInt 5 i else s.mode
    diag := if 0 ≤ i ∧ i ≤ 26 then s.diag else setEvent s.diag .range } := by
  by_cases h : 0 ≤ i ∧ i ≤ 26
  · rw [requestMode_of_mem h, if_pos h, if_pos h]
  · rw [requestMode_of_not_mem h, if_neg h, if_neg h]
    rfl

/-- A brightness request as one update of BRIGHT and DIAG. -/
theorem requestBright_eq (b : Int) (s : State) : s.requestBright b = { s with
    bright := if 0 ≤ b ∧ b ≤ 255 then BitVec.ofInt 8 b else s.bright
    diag := if 0 ≤ b ∧ b ≤ 255 then s.diag else setEvent s.diag .range } := by
  by_cases h : 0 ≤ b ∧ b ≤ 255
  · rw [requestBright_of_mem h, if_pos h, if_pos h]
  · rw [requestBright_of_not_mem h, if_neg h, if_neg h]
    rfl

/-- Both requests in one step: RANGE is raised once when a field is out of range (47_mode_controller.md R308). -/
theorem requestMode_requestBright_eq (i b : Int) (s : State) : (s.requestMode i).requestBright b = { s with
    mode := if 0 ≤ i ∧ i ≤ 26 then BitVec.ofInt 5 i else s.mode
    bright := if 0 ≤ b ∧ b ≤ 255 then BitVec.ofInt 8 b else s.bright
    diag := if (0 ≤ i ∧ i ≤ 26) ∧ 0 ≤ b ∧ b ≤ 255 then s.diag else setEvent s.diag .range } := by
  have hdiag : (if 0 ≤ b ∧ b ≤ 255 then (s.requestMode i).diag else setEvent (s.requestMode i).diag .range) =
      if (0 ≤ i ∧ i ≤ 26) ∧ 0 ≤ b ∧ b ≤ 255 then s.diag else setEvent s.diag .range := by
    rw [requestMode_eq]
    by_cases hi : 0 ≤ i ∧ i ≤ 26
    · simp only [hi, true_and, and_self, if_true]
    · simp only [hi, false_and, if_false, setEvent_setEvent, ite_self]
  rw [requestBright_eq, hdiag, requestMode_eq]

/-- Settles O16: the registers and events of `requestMode_requestBright_eq` are the ones asked for. -/
theorem networkUpdateJudgesEachField : Obligations.NetworkUpdateJudgesEachField := by
  intro s mode16 bri16 hH okm okb
  refine ⟨_, _, _, _, (exec_cfgupdB hH bri16).trans (congrArg _ (requestBright_eq _ s)),
    (exec_cfgupdMB hH mode16 bri16).trans (congrArg _ (requestMode_requestBright_eq _ _ s)),
    fun hm => ?_, fun hm => if_neg hm, fun hb => ?_, fun hb => if_neg hb,
    fun hb => if_pos hb, fun hb => if_neg hb, fun h => if_pos h, fun h => if_neg h⟩
  · rw [if_pos hm]
    exact toNat_ofInt_of_lt hm.1 (by omega)
  · rw [if_pos hb]
    exact toNat_ofInt_of_lt hb.1 (by omega)

/-! ### Steps and clamping -/

theorem exec_adjmode {s : State} (h : s.issuer ≠ .S) (dir : Dir) :
    exec (.adjmode dir) s = .next { s with
      mode := match dir with
        | .plus => if s.mode = 26 then 0 else s.mode + 1
        | .minus => if s.mode = 0 then 26 else s.mode - 1 } :=
  issued_of_may (mayIssue_step_of_port h).1 _

/-- Settles O14: the seam at 26 or at 0 is the one step that is not the word's own sum or difference. -/
theorem adjmodeStepsModulo27 : Obligations.AdjmodeStepsModulo27 := by
  refine fun s hS hle => ⟨⟨_, exec_adjmode hS .plus, ?_⟩, ⟨_, exec_adjmode hS .minus, ?_⟩⟩
  · by_cases h : s.mode = 26
    · simp only [h]
      rfl
    · simp only [if_neg h]
      bv_omega
  · by_cases h : s.mode = 0
    · simp only [h]
      rfl
    · simp only [if_neg h]
      bv_omega

theorem clampBright_toNat (b : Int) : ((clampBright b).toNat : Int) = min 255 (max 0 b) :=
  toNat_ofInt_of_lt (by omega) (by omega)

theorem exec_setbri {s : State} (h : s.issuer = .H) (imm : BitVec 16) :
    exec (.setbri imm) s = .next { s with bright := clampBright imm.toInt } :=
  issued_of_may (mayIssue_of_host h rfl) _

theorem exec_adjbri {s : State} (h : s.issuer ≠ .S) (dir : Dir) :
    exec (.adjbri dir) s = .next { s with bright := clampBright (s.bright.toNat + 10 * dirSign dir) } :=
  issued_of_may (mayIssue_step_of_port h).2 _

/-- Settles O15: every one of these writes is a clamp, and one bound of it is out of a step's reach. -/
theorem brightnessRequestsClamp : Obligations.BrightnessRequestsClamp := by
  refine fun s => ⟨fun imm hH => ⟨_, exec_setbri hH imm, clampBright_toNat _⟩, fun hS =>
    ⟨⟨_, exec_adjbri hS .plus, ?_⟩, ⟨_, exec_adjbri hS .minus, ?_⟩⟩⟩
  · have hclamp := clampBright_toNat (s.bright.toNat + 10 * dirSign .plus)
    rw [dirSign] at hclamp ⊢
    omega
  · have hclamp := clampBright_toNat (s.bright.toNat + 10 * dirSign .minus)
    rw [dirSign] at hclamp ⊢
    omega

/-! ### NOP -/

theorem exec_nop {s : State} (h : s.issuer = .H) : exec .nop s = .next s :=
  issued_of_may (mayIssue_of_host h rfl) s

/-- The one word of opcode 0 that encodes an operation is the all-zero word (30_encoding.md R82, R86). -/
theorem encode_ne_of_opcode_zero {w : OpWord} (hop : opcodeOf w = 0) (hw : w ≠ 0) (i : Instr) : encode i ≠ w := by
  intro he
  have hcode : i.op.code = Op.nop.code := (encode_eq_iff.1 he).1.trans hop
  have hnop : i.op = .nop := Option.some.inj (by rw [← opOf_code i.op, hcode, opOf_code])
  cases i with
  | nop => exact hw he.symm
  | _ => cases hnop

/-- Settles O12: the all-zero word is NOP's, another of opcode 0 is illegal, and NOP is the host's alone. -/
theorem nopLeavesEverything : Obligations.NopLeavesEverything := by
  refine ⟨fun s hH => exec_nop hH, fun s => ?_, fun s w hop hw => ?_, fun s iss w hop hiss => ?_⟩
  · have hd : decode 0x0000000000 = .ok .nop := decode_eq_ok_iff.2 ⟨rfl, rfl⟩
    rw [runWord_ok hd, exec_nop rfl]
  · exact (illegalWordsDropped s .H w).2 .nop hop.symm rfl fun i _ => encode_ne_of_opcode_zero hop hw i
  · refine forbiddenIssuerDropped.1 s iss w .nop hop.symm ?_
    cases iss with
    | H => exact absurd rfl hiss
    | B => rfl
    | S => rfl

end Sys2Proof.Machine
end

section
/-! The order of the actions in a clock (spec/60_exceptions.md R336; spec/70_reset_and_hazards.md R370). -/

namespace Sys2Proof.Machine

theorem hostWords_eq_map (cmd : Option OpWord) : hostWords cmd = cmd.toList.map (Action.word .H) := by
  cases cmd <;> rfl

/-- The words of the pulsed buttons of a list are the words each button gives, in the order of the list. -/
theorem pulsed_map_eq_flatMap (l : List (Bool × Button)) :
    (l.filter (·.1)).map (fun b => Action.word .B b.2.word) = l.flatMap fun b => buttonWords b.1 b.2 := by
  induction l with
  | nil => rfl
  | cons b l ih =>
    obtain ⟨pulsed, button⟩ := b
    rw [List.flatMap_cons, ← ih]
    cases pulsed <;> rfl

theorem actions_of_rst_low {c : ClockIn} (h : c.rst = false) : c.actions = c.cmd.toList.map (Action.word .H) ++
    ([(c.modeInc, Button.modeInc), (c.modeDec, .modeDec), (c.briInc, .briInc), (c.briDec, .briDec)].flatMap
      fun b => buttonWords b.1 b.2) ++ [Action.sequencer c.tick] := by
  rw [← hostWords_eq_map, ClockIn.actions, h, if_neg Bool.false_ne_true]
  simp only [List.flatMap_cons, List.flatMap_nil, List.append_nil, List.append_assoc]

theorem actions_of_rst_high {c : ClockIn} (h : c.rst = true) : c.actions = [Action.reset] := if_pos h

/-- Settles O9: the actions are those of `actions_of_rst_low` or `actions_of_rst_high`, and an empty agenda opens the
clock of the next inputs. -/
theorem clockActionsInOrder : Obligations.ClockActionsInOrder := by
  refine ⟨fun cmd tick mi md bi bd o => ?_, fun c => actions_of_rst_high, fun s c rest ha hi => ?_⟩
  · rw [pulsed_map_eq_flatMap]
    exact actions_of_rst_low rfl
  · rw [step_nil ha, State.openClock, hi]
    rfl

end Sys2Proof.Machine
end

section
/-! What a word on a port writes: MODE, BRIGHT, DIAG and the response, and nothing else
(spec/60_exceptions.md R341; spec/70_reset_and_hazards.md R388). -/

namespace Sys2Proof.Machine

/-- From `s` to `t` at most MODE, BRIGHT, DIAG and the response wires changed. `PortEffect` says less of the fields
and more of the values: it lets the sequencer's result and the inputs to come change. -/
def ConfigOnly (s t : State) : Prop :=
  t = { s with mode := t.mode, bright := t.bright, diag := t.diag, rsp := t.rsp }

namespace ConfigOnly

theorem raise (e : Event) (s : State) : ConfigOnly s (s.raise e) := rfl

/-- The result of an operation a port issued is no result of the sequencer (30_encoding.md R84). -/
theorem respond {s : State} (hp : s.issuer ≠ .S) (r : RspWord) : ConfigOnly s (s.respond r) := by
  have hres : (s.respond r).sRes = s.sRes := by
    rw [State.respond_sRes]
    cases hi : s.issuer with
    | H => rfl
    | B => rfl
    | S => exact absurd hi hp
  exact congrArg (fun v => { s.respond r with sRes := v }) hres

theorem requestMode (i : Int) (s : State) : ConfigOnly s (s.requestMode i) := by
  rw [requestMode_eq]
  rfl

theorem requestBright (b : Int) (s : State) : ConfigOnly s (s.requestBright b) := by
  rw [requestBright_eq]
  rfl

theorem requestBoth (i b : Int) (s : State) : ConfigOnly s ((s.requestMode i).requestBright b) := by
  rw [requestMode_requestBright_eq]
  rfl

theorem dropWord (e : DecodeError) (s : State) : ConfigOnly s (State.dropWord e s) := by
  cases e with
  | unassigned c => exact .raise .illop s
  | reservedField op | zeroDivisor op =>
    simp only [State.dropWord]
    split
    · exact .raise .illop s
    · exact .raise .priv s

end ConfigOnly

/-- An effect of that kind stays one behind the issuer check. -/
theorem issued_configOnly (op : Op) {s effect : State} (h : ConfigOnly s effect) :
    ∃ t, issued op s effect = .next t ∧ ConfigOnly s t := by
  obtain ⟨-, hi⟩ | ⟨-, hi⟩ := issued_cases op s effect
  · exact ⟨effect, hi, h⟩
  · exact ⟨_, hi, .raise .priv s⟩

theorem mayIssue_eq_false_of_sequencerOnly {op : Op} (hop : issuersOf op = [.S]) {iss : Issuer} (hp : iss ≠ .S) :
    mayIssue iss op = false := by simp [mayIssue, hop, hp]

/-- An operation a port issues is taken: what is the sequencer's alone is dropped with PRIV, the rest answer a word or
write MODE and BRIGHT (60_exceptions.md R340, R341). -/
theorem exec_configOnly (i : Instr) {s : State} (hp : s.issuer ≠ .S) :
    ∃ t, exec i s = .next t ∧ ConfigOnly s t := by
  have dropped (hop : issuersOf i.op = [.S]) : ∃ t, exec i s = .next t ∧ ConfigOnly s t :=
    ⟨_, exec_of_not_mayIssue (mayIssue_eq_false_of_sequencerOnly hop hp), .raise .priv s⟩
  cases i with
  | nop | adjmode dir | setbri imm16 | adjbri dir => exact issued_configOnly _ rfl
  | setmode imm16 | cfgupdM mode16 => exact issued_configOnly _ (.requestMode _ s)
  | cfgupdB imm16 => exact issued_configOnly _ (.requestBright _ s)
  | cfgupdMB mode16 bri16 => exact issued_configOnly _ (.requestBoth _ _ s)
  | mappix | unmap | wrap48 | cdist | cfwd | gamma8 | hsv2rgb | scale8 | scale48 | oscTri | oscSin | oscNoise =>
    exact issued_configOnly _ (.respond hp _)
  | huedist start n i =>
    refine issued_configOnly _ ?_
    split
    · exact .raise .illop s
    · exact .respond hp _
  | frame | rand8 | randn | fill | fillring | setpix | getpix | fadeall | fadepix | addpix | present =>
    exact dropped rfl

/-- So is any word, legal or not (30_encoding.md R86, R87). -/
theorem runWord_configOnly {iss : Issuer} (hp : iss ≠ .S) (w : OpWord) (s : State) :
    ∃ t, s.runWord iss w = .next t ∧ ConfigOnly (s.accept iss) t := by
  cases hd : decode w with
  | ok i =>
    rw [runWord_ok hd]
    exact exec_configOnly i hp
  | error e => exact ⟨_, runWord_error hd iss s, .dropWord e _⟩

/-- Settles O18: accepting the word writes the issuer and the response, running it no more than `ConfigOnly` says. -/
theorem portWordsChangeOnlyConfig : Obligations.PortWordsChangeOnlyConfig := by
  intro s iss w rest hp ha
  obtain ⟨t, ht, hconfig⟩ := runWord_configOnly hp w { s with agenda := rest }
  refine ⟨t, (step_cons ha).trans ht, ?_⟩
  cases iss with
  | H => exact hconfig
  | B => exact hconfig
  | S => exact absurd rfl hp

end Sys2Proof.Machine
end

section
/-! The sequencer raises no event: with the default table RESET and RENDER of a known mode leave DIAG as it is, and the
rest of its slot does not write it (spec/60_exceptions.md R331; spec/44_mode_sequencer.md R223). -/

namespace Sys2Proof.Machine

theorem completeRender_diag {s : State} (ht : s.cfg.modeTable = modeTable) (hm : s.sMode.toNat < numMode) :
    s.completeRender.diag = s.diag := by
  by_cases hl : s.renderLeft = 0
  · have hstart : Kept s.canvas
        (if s.sMode = s.lastMode then s.canvas else resetMode s.cfg s.sMode.toNat s.canvas) :=
      (Kept.refl s.canvas).ite _ (kept_resetMode ht _ _)
    rw [completeRender_eq s hl, handOver_diag]
    exact (hstart.trans (kept_renderMode ht hm _)).2
  · rw [completeRender_wait s hl]

theorem countDown_diag (tick : Bool) (s : State) : (s.countDown tick).diag = s.diag := by
  cases tick <;> rfl

/-- Settles O57, phase by phase: the sampled mode is a legal one, whether this slot samples it or an earlier one did. -/
theorem sequencerRaisesNoEvent : Obligations.SequencerRaisesNoEvent := by
  intro s tick hs ht
  cases hq : s.seq with
  | wait =>
    by_cases hd : s.delay = 0
    · exact ⟨_, (runSequencer_due tick hq hd).trans (exec_frame_due hq hd),
        completeRender_diag (s := (s.accept .S).sampleConfig) ht hs.mode_legal⟩
    · exact ⟨_, runSequencer_wait tick hq hd, countDown_diag tick s⟩
  | render =>
    exact ⟨_, runSequencer_render tick hq,
      completeRender_diag (s := { s with renderLeft := s.renderLeft - 1 }) ht hs.sMode_legal⟩
  | present => exact ⟨_, runSequencer_present tick hq, handOver_diag s⟩

end Sys2Proof.Machine
end

section
/-! Back-pressure: a hand-off goes on with the pixel it stands at, whichever clock the consumer takes it in
(spec/70_reset_and_hazards.md R384; spec/20_memory.md R67). -/

namespace Sys2Proof.Machine

section
variable {s : State} {k : Nat} (hsent : s.handoff = (List.range k).map s.outPixel)
include hsent

/-- What is sent after `j` pixels more does not show where the hand-off was held up. -/
theorem handoff_resumed (j : Nat) : s.handoff.length = k ∧
    s.handoff ++ (List.range j).map (fun i => s.outPixel (s.handoff.length + i)) =
      (List.range (k + j)).map s.outPixel := by
  have hlen : s.handoff.length = k := by rw [hsent, List.length_map, List.length_range]
  rw [hlen, ← handoff_append s k j, ← hsent]
  exact ⟨rfl, rfl⟩

theorem handOver_resumed_stall (h : s.consumer.takes (numPix - k) ≠ numPix - k) :
    s.handOver = { s with
      handoff := (List.range (k + s.consumer.takes (numPix - k))).map s.outPixel
      consumer := s.consumer.after (s.consumer.takes (numPix - k)) } := by
  obtain ⟨hlen, happ⟩ := handoff_resumed hsent (s.consumer.takes (numPix - k))
  rw [handOver_stall s (by rwa [hlen]), ← happ, hlen]

theorem handOver_resumed_finish (hk : k ≤ numPix) (h : s.consumer.takes (numPix - k) = numPix - k) :
    s.handOver = { s with
      seq := .wait, handoff := [], consumer := s.consumer.after (numPix - k)
      delay := s.frameDelay.getD s.delay
      frameDelay := none
      outLog := s.outLog ++ [⟨presented s.fb s.outBright, s.frameDelay.getD s.delay⟩] } := by
  obtain ⟨hlen, happ⟩ := handoff_resumed hsent (numPix - k)
  have hwhole : (List.range (k + (numPix - k))).map s.outPixel = presented s.fb s.outBright := by
    rw [Nat.add_sub_cancel' hk]
    rfl
  rw [handOver_finish s (by rwa [hlen]), hlen, ← hwhole, ← happ, hlen]
  rfl

end

/-- Settles O36, by whether the consumer takes all the pixels that are left. -/
theorem handoffResumesWhereItStood : Obligations.HandoffResumesWhereItStood := by
  intro s k tick hq hk hsent
  have hpix : k ≤ numPix := Nat.le_succ_of_le hk
  rw [runSequencer_present tick hq]
  refine ⟨fun n hc hn => ?_, fun hc => ?_⟩
  · have htakes : s.consumer.takes (numPix - k) = n := by
      rw [hc]
      exact Nat.min_eq_left (by simp only [numPix]; omega)
    have hafter : s.consumer.after n = .accepts 0 := by
      rw [hc]
      exact congrArg Consumer.accepts (Nat.sub_self n)
    have hstall : s.consumer.takes (numPix - k) ≠ numPix - k := by
      rw [htakes]
      simp only [numPix]
      omega
    rw [handOver_resumed_stall hsent hstall, htakes, hafter]
  · have hall : s.consumer.takes (numPix - k) = numPix - k := by
      obtain hc | ⟨n, hc, hn⟩ := hc
      · exact (takes_ready hc _).1
      · rw [hc]
        exact Nat.min_eq_right (by simp only [numPix]; omega)
    refine ⟨s.consumer.after (numPix - k), fun hready => ?_, fun n hn => ?_,
      by rw [handOver_resumed_finish hsent hpix hall]⟩
    · exact (takes_ready hready _).2.trans hready
    · rw [hn]
      exact congrArg Consumer.accepts (by simp only [numPix]; omega)

end Sys2Proof.Machine
end

section
/-! The time of a render: the clocks of RENDER only count, and the frame they lead to is the one of a render without
delay (spec/70_reset_and_hazards.md R385, R392). -/

namespace Sys2Proof.Machine

/-- FRAME from the sequencer, when one is due, runs the Render Loop however long the render will take
(44_mode_sequencer.md R210). -/
theorem exec_frame_of_due {s : State} (hS : s.issuer = .S) (hq : s.seq = .wait) (hd : s.delay = 0) :
    exec .frame s = .next s.runFrame := by
  have hdue : s.frameDue = true := by simp [State.frameDue, hq, hd]
  have heff : (if s.frameDue then s.runFrame else s) = s.runFrame := if_pos hdue
  exact (issued_of_may (by rw [hS]; rfl) _).trans (congrArg Host.Outcome.next heff)

/-- As many clocks of RENDER as are left end in the completed render; while some are left nothing else moves. -/
theorem iterate_renderClock (s : State) (n : Nat) :
    State.renderClock^[n] (State.completeRender { s with renderLeft := n }) =
      State.completeRender { s with renderLeft := 0 } := by
  induction n with
  | zero => rfl
  | succ n ih =>
    rw [completeRender_wait { s with renderLeft := n + 1 } (Nat.succ_ne_zero n), Function.iterate_succ_apply]
    exact ih

/-- Settles O38: the two frames sample the same state but for the clocks left. -/
theorem renderTimeChangesNothing : Obligations.RenderTimeChangesNothing := by
  intro s n rest hS hq hd hlats
  have hslow : s.sampleConfig = { s.sampleConfig with renderLeft := n } :=
    congrArg (fun l => { s.sampleConfig with renderLeft := l }) (congrArg (fun l => l.headD 0) hlats)
  have hfast : State.sampleConfig { s with renderLats := 0 :: rest } = { s.sampleConfig with renderLeft := 0 } :=
    congrArg (fun l => { s.sampleConfig with renderLeft := 0, renderLats := l })
      (congrArg List.tail hlats).symm
  refine ⟨s.runFrame, exec_frame_of_due hS hq hd, ?_⟩
  rw [exec_frame_of_due (s := { s with renderLats := 0 :: rest }) hS hq hd, State.runFrame, State.runFrame, hfast,
    hslow, iterate_renderClock]

end Sys2Proof.Machine
end

section
/-! A frame in progress does not read MODE and BRIGHT: it was sampled at its start
(spec/70_reset_and_hazards.md R380; spec/20_memory.md R62). -/

namespace Sys2Proof.Machine

/-- The state with other values in MODE and BRIGHT. -/
def State.withConfig (m : BitVec 5) (b : Byte) (s : State) : State := { s with mode := m, bright := b }

section
variable (m : BitVec 5) (b : Byte) (s : State)

theorem handOver_withConfig : (s.withConfig m b).handOver = s.handOver.withConfig m b := by
  by_cases h : s.consumer.takes (numPix - s.handoff.length) = numPix - s.handoff.length
  · rw [handOver_finish s h, handOver_finish (s.withConfig m b) h]
    rfl
  · rw [handOver_stall s h, handOver_stall (s.withConfig m b) h]
    rfl

/-- Reset, render and hand-off go by the sampled mode and brightness (44_mode_sequencer.md R210). -/
theorem completeRender_withConfig : (s.withConfig m b).completeRender = s.completeRender.withConfig m b := by
  by_cases h : s.renderLeft = 0
  · rw [completeRender_eq s h, completeRender_eq (s.withConfig m b) h, ← handOver_withConfig]
    rfl
  · rw [completeRender_wait s h, completeRender_wait (s.withConfig m b) h]

theorem renderClock_withConfig : (s.withConfig m b).renderClock = s.renderClock.withConfig m b :=
  completeRender_withConfig m b { s with renderLeft := s.renderLeft - 1 }

end

/-- Settles O39, phase by phase: in WAIT the frame has not been sampled, later it has. -/
theorem frameIgnoresLaterWrites : Obligations.FrameIgnoresLaterWrites := by
  intro s t m b tick hne ht
  change (s.withConfig m b).runSequencer tick = .next (t.withConfig m b)
  cases hq : s.seq with
  | wait => exact absurd hq hne
  | render =>
    rw [runSequencer_render tick hq] at ht
    cases ht
    exact (runSequencer_render (s := s.withConfig m b) tick hq).trans
      (congrArg Host.Outcome.next (renderClock_withConfig m b s))
  | present =>
    rw [runSequencer_present tick hq] at ht
    cases ht
    exact (runSequencer_present (s := s.withConfig m b) tick hq).trans
      (congrArg Host.Outcome.next (handOver_withConfig m b s))

end Sys2Proof.Machine
end

section
/-! Nothing stops the engine: every action answers a next state, and but for a reset it leaves the log of frames or
appends one frame (spec/70_reset_and_hazards.md R370, R388; spec/10_state.md R41). -/

namespace Sys2Proof.Machine

/-! ### The log of frames -/

/-- From `s` to `t` the log stayed as it was, or one frame was appended (10_state.md R41). -/
def LogGrows (s t : State) : Prop := t.outLog = s.outLog ∨ ∃ f : FrameOut, t.outLog = s.outLog ++ [f]

/-- The log is the sequencer's. -/
theorem PortEffect.logGrows {s t : State} (h : PortEffect s t) : LogGrows s t := by
  have hlog : t.sequencerPart.outLog = s.sequencerPart.outLog := congrArg State.outLog h.part
  exact .inl hlog

theorem logGrows_withCanvas (s : State) (c : Canvas) : LogGrows s (s.withCanvas c) :=
  .inl (State.withCanvas_outLog c s)

theorem LogGrows.respond {s t : State} (h : LogGrows s t) (w : RspWord) : LogGrows s (t.respond w) := h

theorem logGrows_handOver (s : State) : LogGrows s s.handOver := by
  by_cases h : s.consumer.takes (numPix - s.handoff.length) = numPix - s.handoff.length
  · rw [handOver_finish s h]
    exact .inr ⟨_, rfl⟩
  · rw [handOver_stall s h]
    exact .inl rfl

theorem logGrows_completeRender (s : State) : LogGrows s s.completeRender := by
  by_cases h : s.renderLeft = 0
  · rw [completeRender_eq s h]
    exact logGrows_handOver _
  · rw [completeRender_wait s h]
    exact .inl rfl

theorem logGrows_runFrame (s : State) : LogGrows s s.runFrame := logGrows_completeRender s.sampleConfig

/-! ### Every action answers -/

/-- The issuer check lets an effect through or raises an event; neither does more to the log than the effect. -/
theorem issued_logGrows (op : Op) {s effect : State} (h : LogGrows s effect) :
    ∃ t, issued op s effect = .next t ∧ LogGrows s t := by
  obtain ⟨-, hi⟩ | ⟨-, hi⟩ := issued_cases op s effect
  · exact ⟨effect, hi, h⟩
  · exact ⟨_, hi, .inl rfl⟩

/-- Every operation has a next state, and of them only FRAME and PRESENT can log a frame. -/
theorem exec_logGrows (i : Instr) (s : State) : ∃ t, exec i s = .next t ∧ LogGrows s t := by
  have port (hop : issuersOf i.op ≠ [.S]) : ∃ t, exec i s = .next t ∧ LogGrows s t := by
    obtain ⟨effect, he, -, hport⟩ := exec_issued i s
    rw [he]
    exact issued_logGrows _ (hport.resolve_left hop).logGrows
  cases i with
  | frame =>
    refine issued_logGrows .frame ?_
    split
    · exact logGrows_runFrame s
    · exact .inl rfl
  | present b => exact issued_logGrows .present (logGrows_handOver (s.startPresent b))
  | randn n =>
    refine issued_logGrows .randn ?_
    split
    · exact .inl rfl
    · exact (logGrows_withCanvas s _).respond _
  | rand8 => exact issued_logGrows .rand8 ((logGrows_withCanvas s _).respond _)
  | getpix => exact issued_logGrows .getpix ((logGrows_withCanvas s _).respond _)
  | fill | fillring | setpix | fadeall | fadepix | addpix => exact issued_logGrows _ (logGrows_withCanvas s _)
  | _ => exact port (by simp only [Instr.op]; decide)

/-- So has every word, legal or not (60_exceptions.md R334). -/
theorem runWord_logGrows (iss : Issuer) (w : OpWord) (s : State) :
    ∃ t, s.runWord iss w = .next t ∧ LogGrows s t := by
  cases hd : decode w with
  | ok i =>
    rw [runWord_ok hd]
    exact exec_logGrows i (s.accept iss)
  | error e => exact ⟨_, runWord_error hd iss s, (dropWord_portEffect e (s.accept iss)).logGrows⟩

/-- So has the sequencer's slot, in every phase. -/
theorem runSequencer_logGrows (tick : Bool) (s : State) : ∃ t, s.runSequencer tick = .next t ∧ LogGrows s t := by
  cases hq : s.seq with
  | wait =>
    by_cases hd : s.delay = 0
    · rw [runSequencer_due tick hq hd]
      exact exec_logGrows .frame (s.accept .S)
    · refine ⟨_, runSequencer_wait tick hq hd, .inl ?_⟩
      cases tick <;> rfl
  | render =>
    exact ⟨_, runSequencer_render tick hq, logGrows_completeRender { s with renderLeft := s.renderLeft - 1 }⟩
  | present => exact ⟨_, runSequencer_present tick hq, logGrows_handOver s⟩

/-- Settles O59, by the agenda: a clock opens, a reset empties the log, any other action leaves it or appends. -/
theorem everyStepGoesOn : Obligations.EveryStepGoesOn := by
  intro s
  cases ha : s.agenda with
  | nil => exact ⟨_, step_nil ha, .inr (.inl rfl)⟩
  | cons a rest =>
    rw [step_cons ha]
    cases a with
    | reset => exact ⟨_, rfl, .inl ⟨⟨rest, rfl⟩, rfl⟩⟩
    | word iss w =>
      obtain ⟨t, ht, hlog⟩ := runWord_logGrows iss w { s with agenda := rest }
      exact ⟨t, ht, .inr hlog⟩
    | sequencer tick =>
      obtain ⟨t, ht, hlog⟩ := runSequencer_logGrows tick { s with agenda := rest }
      exact ⟨t, ht, .inr hlog⟩

end Sys2Proof.Machine
end

section
/-! Start-up: the first clock after reset runs a whole frame of mode 0 (spec/70_reset_and_hazards.md R372;
spec/45_modes_0_13.md R240). -/

namespace Sys2Proof.Machine

/-! ### The picture the consumer gets -/

theorem scaleRgb_full (p : Rgb) : scaleRgb 255 p = p := by simp only [scaleRgb, sc255_full]

/-- A picture that shows the same on both rings goes out forward along Ring A and backward along Ring B
(40_ring_geometry.md R117). -/
theorem presented_of_atPos {fb : Memory} {b : Byte} {colour : Nat → Rgb}
    (h : ∀ {p a : Nat}, AtPos p a → scaleRgb b (fb.read a) = colour p) :
    presented fb b = (List.range 48).map colour ++ (List.range 48).map fun p => colour (47 - p) := by
  have hsplit : List.range numPix = List.range 48 ++ (List.range 48).map (48 + ·) :=
    (List.range_add : List.range (48 + 48) = _)
  rw [presented, hsplit, List.map_append, List.map_map]
  congr 1 <;> refine List.map_congr_left fun p hp => h ?_
  · exact .ringA (Nat.le_of_lt_succ (List.mem_range.1 hp))
  · have hlt := List.mem_range.1 hp
    exact ⟨Nat.sub_le 47 p, .inr (show 48 + p = 95 - (47 - p) by omega)⟩

/-! ### The frame of the first clock -/

/-- The state in which the sequencer takes the slot of the first clock after reset. -/
def firstSlot : State := { State.reset.openClock with agenda := [] }

theorem firstSlot_inv : firstSlot.Inv :=
  resetStateIsLegal.openClock.of_sequencerPart rfl (by decide) fun _ h => absurd h List.not_mem_nil

theorem firstSlot_accepted_ready : (firstSlot.accept .S).FrameReady :=
  ⟨⟨rfl, rfl, rfl, rfl⟩, rfl⟩

/-- The frame is due at once: DELAY is 0 (70_reset_and_hazards.md R372). -/
theorem firstSlot_runSequencer : firstSlot.runSequencer false = .next (firstSlot.accept .S).frameDone :=
  (runSequencer_due false rfl rfl).trans firstSlot_accepted_ready.exec_frame

/-- LASTMODE is none, so mode 0 is entered: its render finds the registers at 0 (44_mode_sequencer.md R212, R213). -/
theorem firstSlot_frameCanvas : ∃ c : Canvas, c.x = ⟨0, 0, 0, 0⟩ ∧ c.fb.wf = true ∧
    (firstSlot.accept .S).frameCanvas = rainbow c := by
  obtain ⟨hm, h17, hrender⟩ := renderMode_of_standard (s := firstSlot.accept .S) rfl (m := 0) (by decide) rfl
    (f := rainbow) fun _ => rfl
  refine ⟨(firstSlot.accept .S).startCanvas, ?_, wf_startCanvas rfl, hrender _⟩
  rw [startCanvas_entered rfl hm h17 (by decide), withX_x]

/-- Settles O11: the frame is the rainbow's of an entered mode 0, with no draw and no event. -/
theorem firstFrameAfterReset : Obligations.FirstFrameAfterReset := by
  have hrun := firstSlot_runSequencer
  have hstep : step State.reset.openClock = .next (firstSlot.accept .S).frameDone :=
    (step_cons (a := .sequencer false) (rest := []) rfl).trans hrun
  obtain ⟨c, hx, hwf, hcanvas⟩ := firstSlot_frameCanvas
  refine ⟨State.reset.openClock, (firstSlot.accept .S).frameDone, step_nil rfl, hstep, ?_, ?_, rfl, rfl, rfl,
    ?_, ?_⟩
  · have hpicture : presented (rainbow c).fb 255 = _ :=
      presented_of_atPos (colour := fun p => hsv2rgb (BitVec.ofNat 8 (1 + 256 * p / 48)) 255 255) fun ha => by
        rw [scaleRgb_full, read_rainbow hwf (h := 0) (by rw [hx]; rfl) ha]
    rw [← hpicture, ← hcanvas]
    rfl
  · refine (congrArg Canvas.x hcanvas).trans ?_
    rw [rainbow_x, hx]
    rfl
  · obtain ⟨t, ht, hdiag⟩ := sequencerRaisesNoEvent firstSlot false firstSlot_inv rfl
    cases ht.symm.trans hrun
    exact hdiag
  · obtain ⟨t, ht, -, hpos, -⟩ := onlyRandomizedModesDraw (firstSlot.accept .S) firstSlot_accepted_ready rfl
      (by decide) (by decide)
    cases ht.symm.trans firstSlot_accepted_ready.exec_frame
    exact hpos

end Sys2Proof.Machine
end
